-- ==== Sys2Proof/Word.lean ====
section
/-! DEFINITION. The word types of the controller's register window (20_memory.md R70: one 32-bit word, bit 0 least
significant; 00_scope.md R8). -/

namespace Sys2Proof

/-- One 32-bit register, response or FIFO word (20_memory.md R70). -/
abbrev Word := BitVec 32

/-- The corrected SCR is 64 bits wide (10_state.md R24). -/
abbrev DWord := BitVec 64

end Sys2Proof
end

