-- ==== Sys2Proof/Machine/Layout.lean ====
section
/-! DEFINITION. `LAYOUT` (00_scope.md R7, 92_eei_decisions.md D1): the layout record, its default, and the masks the rules
build from it. The machine's parameters hold a layout (log 1). -/

namespace Sys2Proof.Machine

/-- The controller registers of 10_state.md R50. -/
inductive Reg where
  | power
  | clkcr
  | argr
  | cmdr
  | respcmdr
  | resp1
  | resp2
  | resp3
  | resp4
  | dtimer
  | dlenr
  | dctrl
  | star
  | icr
  | maskr
  | idmactrlr
  | fifor
deriving DecidableEq, Repr, Inhabited

/-- The registers in the order of 10_state.md R50. -/
def Reg.all : List Reg :=
  [.power, .clkcr, .argr, .cmdr, .respcmdr, .resp1, .resp2, .resp3, .resp4, .dtimer, .dlenr, .dctrl, .star, .icr,
   .maskr, .idmactrlr, .fifor]

/-- One word for each controller register (10_state.md R50): the registers' contents in a state, and the offset and mask
columns of a layout. ENV answers the reads of `star`, `respcmdr`, `resp1` to `resp4` and `fifor`: in a state those fields
hold the last answer (log 4). -/
structure Regs where
  power : Word
  clkcr : Word
  argr : Word
  cmdr : Word
  respcmdr : Word
  resp1 : Word
  resp2 : Word
  resp3 : Word
  resp4 : Word
  dtimer : Word
  dlenr : Word
  dctrl : Word
  star : Word
  icr : Word
  maskr : Word
  idmactrlr : Word
  fifor : Word
deriving DecidableEq, Repr, Inhabited

/-- The word a register holds. -/
def Regs.get (g : Regs) : Reg → Word
  | .power => g.power
  | .clkcr => g.clkcr
  | .argr => g.argr
  | .cmdr => g.cmdr
  | .respcmdr => g.respcmdr
  | .resp1 => g.resp1
  | .resp2 => g.resp2
  | .resp3 => g.resp3
  | .resp4 => g.resp4
  | .dtimer => g.dtimer
  | .dlenr => g.dlenr
  | .dctrl => g.dctrl
  | .star => g.star
  | .icr => g.icr
  | .maskr => g.maskr
  | .idmactrlr => g.idmactrlr
  | .fifor => g.fifor

/-- A layout: for each register its offset and the bits a write sets and a read gives (every other bit is reserved; a
read-only register has none), and the position of the least significant bit of each field the rules name. The widths are
fixed (00_scope.md R7, below the table). A flag has one position, in STAR, ICR and MASKR (10_state.md R60 to R62). -/
structure Layout where
  offset : Regs
  rw : Regs
  /-- POWER.PWRCTRL, 2 bits -/
  pwrctrl : Nat
  /-- CLKCR.CLKDIV, 10 bits -/
  clkdiv : Nat
  /-- CLKCR.PWRSAV -/
  pwrsav : Nat
  /-- CLKCR.WIDBUS, 2 bits -/
  widbus : Nat
  /-- CLKCR.NEGEDGE -/
  negedge : Nat
  /-- CLKCR.HWFC_EN -/
  hwfc : Nat
  /-- CMDR.CMDINDEX, 6 bits -/
  cmdindex : Nat
  /-- CMDR.CMDTRANS -/
  cmdtrans : Nat
  /-- CMDR.WAITRESP, 2 bits -/
  waitresp : Nat
  /-- CMDR.WAITINT -/
  waitint : Nat
  /-- CMDR.WAITPEND -/
  waitpend : Nat
  /-- CMDR.CPSMEN -/
  cpsmen : Nat
  /-- CMDR.CMDSUSPEND -/
  cmdsuspend : Nat
  /-- RESPCMDR.RESPCMD, 6 bits -/
  respcmd : Nat
  /-- DCTRL.DTEN -/
  dten : Nat
  /-- DCTRL.DTDIR -/
  dtdir : Nat
  /-- DCTRL.DTMODE, 2 bits -/
  dtmode : Nat
  /-- DCTRL.DBLOCKSIZE, 4 bits -/
  dblocksize : Nat
  ccrcfail : Nat
  dcrcfail : Nat
  ctimeout : Nat
  dtimeout : Nat
  txunderr : Nat
  rxoverr : Nat
  cmdrend : Nat
  cmdsent : Nat
  dataend : Nat
  dhold : Nat
  dbckend : Nat
  dabort : Nat
  cpsmact : Nat
  txfifohe : Nat
  rxfifohf : Nat
  rxfifoe : Nat
  busyd0end : Nat
  idmate : Nat
  idmabtc : Nat
deriving DecidableEq, Repr, Inhabited

/-- The offset column of 10_state.md R50. -/
def standardOffsets : Regs where
  power := 0x00
  clkcr := 0x04
  argr := 0x08
  cmdr := 0x0C
  respcmdr := 0x10
  resp1 := 0x14
  resp2 := 0x18
  resp3 := 0x1C
  resp4 := 0x20
  dtimer := 0x24
  dlenr := 0x28
  dctrl := 0x2C
  star := 0x34
  icr := 0x38
  maskr := 0x3C
  idmactrlr := 0x50
  fifor := 0x80

/-- The RW bits of each register, from the field lists of 10_state.md R51 to R63. -/
def standardRw : Regs where
  power := 0x0000001F
  clkcr := 0x003FD3FF
  argr := 0xFFFFFFFF
  cmdr := 0x0001FFFF
  respcmdr := 0
  resp1 := 0
  resp2 := 0
  resp3 := 0
  resp4 := 0
  dtimer := 0xFFFFFFFF
  dlenr := 0x01FFFFFF
  dctrl := 0x00003FFF
  star := 0
  icr := 0x1FE00FFF
  maskr := 0x17E6CFFF
  idmactrlr := 0x00000007
  fifor := 0

/-- The default of `LAYOUT` (D1): the positions of 10_state.md R51 to R62. -/
def standardLayout : Layout where
  offset := standardOffsets
  rw := standardRw
  pwrctrl := 0
  clkdiv := 0
  pwrsav := 12
  widbus := 14
  negedge := 16
  hwfc := 17
  cmdindex := 0
  cmdtrans := 6
  waitresp := 8
  waitint := 10
  waitpend := 11
  cpsmen := 12
  cmdsuspend := 16
  respcmd := 0
  dten := 0
  dtdir := 1
  dtmode := 2
  dblocksize := 4
  ccrcfail := 0
  dcrcfail := 1
  ctimeout := 2
  dtimeout := 3
  txunderr := 4
  rxoverr := 5
  cmdrend := 6
  cmdsent := 7
  dataend := 8
  dhold := 9
  dbckend := 10
  dabort := 11
  cpsmact := 13
  txfifohe := 14
  rxfifohf := 15
  rxfifoe := 19
  busyd0end := 21
  idmate := 27
  idmabtc := 28

/-- A field value at its position. -/
def fieldAt {n : Nat} (pos : Nat) (v : BitVec n) : Word := v.setWidth 32 <<< pos

/-- The word with the bits at the given positions set. -/
def bitsAt : List Nat → Word
  | [] => 0
  | n :: t => fieldAt n 1#1 ||| bitsAt t

/-- The CMDR fields that `send` writes, CMD_FIELDS (10_state.md R54). -/
def cmdFields (l : Layout) : Word :=
  bitsAt [l.waitint, l.waitpend, l.cpsmen, l.cmdsuspend] ||| fieldAt l.waitresp 0b11#2 ||| fieldAt l.cmdindex 0b111111#6
/-- CMDTRANS, the "transfer-command bit" (10_state.md R54). -/
def cmdTrans (l : Layout) : Word := bitsAt [l.cmdtrans]
/-- The CLKCR fields the block writes, CLKCR_FIELDS (10_state.md R52). -/
def clkcrFields (l : Layout) : Word :=
  bitsAt [l.hwfc, l.negedge, l.pwrsav] ||| fieldAt l.widbus 0b11#2 ||| fieldAt l.clkdiv 0x3FF#10
/-- POWER.PWRCTRL (10_state.md R51). -/
def pwrCtrl (l : Layout) : Word := fieldAt l.pwrctrl 0b11#2
/-- The command-completion flags cleared through ICR, CMD_FLAGS (10_state.md R61). -/
def cmdFlags (l : Layout) : Word := bitsAt [l.ccrcfail, l.ctimeout, l.cmdrend, l.cmdsent, l.busyd0end]
/-- The data-completion flags cleared through ICR, DATA_FLAGS (10_state.md R61). -/
def dataFlags (l : Layout) : Word :=
  bitsAt [l.dcrcfail, l.dtimeout, l.txunderr, l.rxoverr, l.dataend, l.dhold, l.dbckend, l.dabort, l.idmate, l.idmabtc]
/-- The data-path interrupt enables of MASKR, DATA_IRQ (10_state.md R62). -/
def dataIrq (l : Layout) : Word :=
  bitsAt [l.dcrcfail, l.dtimeout, l.txunderr, l.rxoverr, l.dataend, l.txfifohe, l.rxfifohf]
/-- The terminal flags of `await_response` (40_engine.md R143). -/
def termFlags (l : Layout) : Word := bitsAt [l.ccrcfail, l.cmdrend, l.ctimeout, l.busyd0end]
/-- The terminal flags of `drain` (41_datapath.md R161). -/
def dataTermFlags (l : Layout) : Word := bitsAt [l.dcrcfail, l.dtimeout, l.rxoverr, l.dataend]
/-- The data-error flags the handler dispatches on (60_exceptions.md R271). -/
def dataErrFlags (l : Layout) : Word := bitsAt [l.dcrcfail, l.dtimeout, l.txunderr, l.rxoverr]
/-- The sticky flags of STAR: each has a clear bit in ICR at its position (10_state.md R60, R61). -/
def stickyFlags (l : Layout) : Word := l.rw.icr

end Sys2Proof.Machine
end

