-- ==== Sys2Proof/Config.lean ====
section
/-! DEFINITION. What an implementation fixes (the parameters of 00_scope.md R7, the layout record among them) and the free
values of the model. -/

namespace Sys2Proof

/-- `P_OVERRUN_RESULT`, the drain's outcome on a receive overrun (00_scope.md R7, D12). -/
inductive OverrunResult where
  | crcFailure
  | timeout
deriving DecidableEq, Repr, Inhabited

/-- The parameters of 00_scope.md R7, as one record of plain data. A budget is "a natural number at least 1" (D9, D45):
the field holds the budget less one, so that no record breaks the bound; the accessors below give the budget. -/
structure Params where
  /-- `P_PCLK`, the kernel clock in Hz (the range check is BringUp's, D19). -/
  pclk : Nat
  /-- `P_SENT_BUDGET` less one. -/
  sentMore : Nat
  /-- `P_RESP_BUDGET` less one. -/
  respMore : Nat
  /-- `P_DRAIN_BUDGET` less one. -/
  drainMore : Nat
  /-- `P_STOP_BUDGET` less one. -/
  stopMore : Nat
  /-- `P_WAIT_BUDGET` less one. -/
  waitMore : Nat
  /-- `P_VOLT_BUDGET` less one. -/
  voltMore : Nat
  /-- `P_READY_BUDGET` less one. -/
  readyMore : Nat
  /-- `P_DTIMER` (D15). -/
  dtimer : Word
  /-- `P_NEGEDGE` (D20). -/
  negedge : BitVec 1
  /-- `P_PWRSAV` (D20). -/
  pwrsav : BitVec 1
  /-- `P_HWFC` (D20). -/
  hwfc : BitVec 1
  /-- `P_R3_CRC_ACCEPT` (D8). -/
  r3CrcAccept : Bool
  /-- `P_OVERRUN_RESULT` (D12). -/
  overrunResult : OverrunResult
  /-- `LAYOUT` (D1): the record of Machine/Layout.lean (log 1). -/
  layout : Machine.Layout
  /-- `P_BASE`, the address of the register window (D2). -/
  base : Word
  /-- `P_PIN_AF`, passed to the pin service and read by nothing else (D40). -/
  pinAf : Nat
  /-- `P_IRQ_PRIO`: no rule reads it (D40). -/
  irqPrio : Nat
  /-- `P_WRITE_GAP`: timing only, no rule reads it (D43). -/
  writeGap : Nat
deriving DecidableEq, Repr, Inhabited

/-- `P_SENT_BUDGET`, at least 1. -/
def Params.sentBudget (p : Params) : Nat := p.sentMore + 1
/-- `P_RESP_BUDGET`, at least 1. -/
def Params.respBudget (p : Params) : Nat := p.respMore + 1
/-- `P_DRAIN_BUDGET`, at least 1. -/
def Params.drainBudget (p : Params) : Nat := p.drainMore + 1
/-- `P_STOP_BUDGET`, at least 1. -/
def Params.stopBudget (p : Params) : Nat := p.stopMore + 1
/-- `P_WAIT_BUDGET`, at least 1. -/
def Params.waitBudget (p : Params) : Nat := p.waitMore + 1
/-- `P_VOLT_BUDGET`, at least 1. -/
def Params.voltBudget (p : Params) : Nat := p.voltMore + 1
/-- `P_READY_BUDGET`, at least 1. -/
def Params.readyBudget (p : Params) : Nat := p.readyMore + 1

/-- The places where ENV answers (20_memory.md R74, 60_exceptions.md R264): the registers whose reads it answers, and
the flags it shows at a preemption point, where the interrupt line is sampled. -/
inductive EnvPort where
  | star
  | respcmdr
  | resp1
  | resp2
  | resp3
  | resp4
  | fifor
  | flags
deriving DecidableEq, Repr, Inhabited

/-- The parameters of the machine that `State.reset` describes: nothing is known of them, but that `State.reset` takes the
default layout (log 1, log 2). -/
opaque Config.params : Params

/-- The free value ENV answers with at a port where its script holds no answer: any value (20_memory.md R74; log 3). -/
opaque Config.envAnswer : EnvPort → Nat → Word

/-- The free choice of a racing read of the transfer record, between the value StartTransfer wrote and a value IRQ
writes (20_memory.md R80 item 3; log 17). -/
opaque Config.raceTakesStart : Nat → Bool

/-- The free status word IRQ may write, for a racing read of `status` (20_memory.md R80 item 3; log 17). -/
opaque Config.raceStatus : Nat → Word

end Sys2Proof
end

