-- ==== Sys2Proof/Syntax.lean ====
section
/-! DEFINITION. The instructions: the 14 SD command words of 30_encoding.md R108, one constructor per row of
spec/opcode_table.json, each with its 32-bit argument (R100: the ARGR half), and the raw word they are encoded in. -/

namespace Sys2Proof

/-- A command word as the two registers hold it (30_encoding.md R100): the ARGR value and the CMDR value. -/
structure CmdWord where
  arg : Word
  cmdr : Word
deriving DecidableEq, Repr, Inhabited

/-- The response kind of a command descriptor (00_scope.md R13, 30_encoding.md R101). -/
inductive RespKind where
  | none
  | short
  | long
deriving DecidableEq, Repr, Inhabited

/-- The SD response type of a row (30_encoding.md R104). -/
inductive SdResp where
  | none
  | r1
  | r1b
  | r2
  | r3
  | r6
  | r7
deriving DecidableEq, Repr, Inhabited

/-- One row of the opcode map (30_encoding.md R108): whether the prefix CMD55 precedes the word, the command index, the
response kind and the SD response type. -/
structure Row where
  app : Bool
  index : BitVec 6
  kind : RespKind
  sdResp : SdResp
deriving DecidableEq, Repr, Inhabited

/-- One instruction: a row of 30_encoding.md R108 with its argument. -/
inductive Instr where
  /-- go-idle (42_commands.md R180) -/
  | cmd0 (arg : Word)
  /-- send-operating-condition, MMC (R181) -/
  | cmd1 (arg : Word)
  /-- all-send-CID (R182) -/
  | cmd2 (arg : Word)
  /-- send-relative-address (R183) -/
  | cmd3 (arg : Word)
  /-- select/deselect-card (R184) -/
  | cmd7 (arg : Word)
  /-- send-interface-condition (R185) -/
  | cmd8 (arg : Word)
  /-- send-CSD (R186) -/
  | cmd9 (arg : Word)
  /-- stop-transmission (R187) -/
  | cmd12 (arg : Word)
  /-- send-status (R188) -/
  | cmd13 (arg : Word)
  /-- set-block-length (R189) -/
  | cmd16 (arg : Word)
  /-- application-command-prefix (R190) -/
  | cmd55 (arg : Word)
  /-- set-bus-width (R191) -/
  | acmd6 (arg : Word)
  /-- send-operating-condition, SD (R192) -/
  | acmd41 (arg : Word)
  /-- send-SCR (R193) -/
  | acmd51 (arg : Word)
deriving DecidableEq, Repr, Inhabited

end Sys2Proof
end

