-- ==== Sys2Proof/Decode.lean ====
section
/-! DEFINITION. Decoding and encoding of command words (30_encoding.md R100 to R111). Decoding is total: every pair of
words and either value of the prefix bit gives an instruction or a refusal by name. -/

namespace Sys2Proof

open Sys2Proof.Machine

/-- Why a command word is "not an instruction of this block" (30_encoding.md R110). -/
inductive DecodeReject where
  /-- CPSMEN = 0 -/
  | pathDisabled
  /-- WAITINT = 1 -/
  | waitInt
  /-- WAITPEND = 1 -/
  | waitPend
  /-- CMDSUSPEND = 1 -/
  | suspend
  /-- WAITRESP = 0b10 -/
  | reservedKind
  /-- no row of R108 has this prefix, index and kind -/
  | noRow
deriving DecidableEq, Repr, Inhabited

/-- What the decoder answers. -/
inductive Decoded where
  | instr (i : Instr)
  | reject (why : DecodeReject)
deriving DecidableEq, Repr, Inhabited

/-- The argument of an instruction, its ARGR half. -/
def Instr.arg : Instr → Word
  | .cmd0 a => a
  | .cmd1 a => a
  | .cmd2 a => a
  | .cmd3 a => a
  | .cmd7 a => a
  | .cmd8 a => a
  | .cmd9 a => a
  | .cmd12 a => a
  | .cmd13 a => a
  | .cmd16 a => a
  | .cmd55 a => a
  | .acmd6 a => a
  | .acmd41 a => a
  | .acmd51 a => a

/-- The row of 30_encoding.md R108 (SD response types: R104). -/
def Instr.row : Instr → Row
  | .cmd0 _ => ⟨false, 0, .none, .none⟩
  | .cmd1 _ => ⟨false, 1, .short, .r3⟩
  | .cmd2 _ => ⟨false, 2, .long, .r2⟩
  | .cmd3 _ => ⟨false, 3, .short, .r6⟩
  | .cmd7 _ => ⟨false, 7, .short, .r1b⟩
  | .cmd8 _ => ⟨false, 8, .short, .r7⟩
  | .cmd9 _ => ⟨false, 9, .long, .r2⟩
  | .cmd12 _ => ⟨false, 12, .short, .r1b⟩
  | .cmd13 _ => ⟨false, 13, .short, .r1⟩
  | .cmd16 _ => ⟨false, 16, .short, .r1⟩
  | .cmd55 _ => ⟨false, 55, .short, .r1⟩
  | .acmd6 _ => ⟨true, 6, .short, .r1⟩
  | .acmd41 _ => ⟨true, 41, .short, .r3⟩
  | .acmd51 _ => ⟨true, 51, .short, .r1⟩

/-- The WAITRESP value of a response kind (30_encoding.md R101, D5). -/
def RespKind.code : RespKind → BitVec 2
  | .none => 0b00
  | .short => 0b01
  | .long => 0b11

/-- The response kind of a WAITRESP value; 0b10 is reserved (30_encoding.md R110). -/
def RespKind.ofCode (c : BitVec 2) : Option RespKind :=
  if c = 0b00 then some RespKind.none else if c = 0b01 then some RespKind.short
  else if c = 0b11 then some RespKind.long else Option.none

/-- The CMDR field value of a command word (30_encoding.md R102): CPSMEN, the kind and the index at their positions. -/
def cmdw (l : Layout) (index : BitVec 6) (kind : RespKind) : Word :=
  bitsAt [l.cpsmen] ||| fieldAt l.waitresp kind.code ||| fieldAt l.cmdindex index

/-- The encoder: the two words of an instruction (30_encoding.md R100 to R102). -/
def encode (l : Layout) (i : Instr) : CmdWord := ⟨i.arg, cmdw l i.row.index i.row.kind⟩

/-- Whether the instruction is the prefix CMD55, which sets the decoder's `app_pending` (30_encoding.md R109). -/
def Instr.isPrefix : Instr → Bool
  | .cmd0 _ => false
  | .cmd1 _ => false
  | .cmd2 _ => false
  | .cmd3 _ => false
  | .cmd7 _ => false
  | .cmd8 _ => false
  | .cmd9 _ => false
  | .cmd12 _ => false
  | .cmd13 _ => false
  | .cmd16 _ => false
  | .cmd55 _ => true
  | .acmd6 _ => false
  | .acmd41 _ => false
  | .acmd51 _ => false

/-- The row of 30_encoding.md R108 with the given prefix, index and kind, as an instruction with argument `a`. -/
def instrOfRow (p : Bool) (index : Nat) (kind : RespKind) (a : Word) : Option Instr :=
  match p, kind with
  | false, .none => if index = 0 then some (.cmd0 a) else none
  | false, .long => if index = 2 then some (.cmd2 a) else if index = 9 then some (.cmd9 a) else none
  | false, .short =>
    if index = 1 then some (.cmd1 a)
    else if index = 3 then some (.cmd3 a)
    else if index = 7 then some (.cmd7 a)
    else if index = 8 then some (.cmd8 a)
    else if index = 12 then some (.cmd12 a)
    else if index = 13 then some (.cmd13 a)
    else if index = 16 then some (.cmd16 a)
    else if index = 55 then some (.cmd55 a)
    else none
  | true, .short =>
    if index = 6 then some (.acmd6 a)
    else if index = 41 then some (.acmd41 a)
    else if index = 51 then some (.acmd51 a)
    else none
  | true, .none => none
  | true, .long => none

/-- The decoder (30_encoding.md R110, R111): the prefix bit, then the command word. Bits outside CMD_FIELDS are not
looked at, nor is the argument. -/
def decode (l : Layout) (p : Bool) (w : CmdWord) : Decoded :=
  if w.cmdr.getLsbD l.cpsmen = false then .reject .pathDisabled
  else if w.cmdr.getLsbD l.waitint = true then .reject .waitInt
  else if w.cmdr.getLsbD l.waitpend = true then .reject .waitPend
  else if w.cmdr.getLsbD l.cmdsuspend = true then .reject .suspend
  else
    match RespKind.ofCode (w.cmdr.extractLsb' l.waitresp 2) with
    | none => .reject .reservedKind
    | some kind =>
      match instrOfRow p (w.cmdr.extractLsb' l.cmdindex 6).toNat kind w.arg with
      | none => .reject .noRow
      | some i => .instr i

/-- The prefix under which an index can be a row at all: the application commands are 6, 41 and 51, and no index is a
row both with and without the prefix (30_encoding.md R108; log 11). -/
def prefixOfIndex (index : Nat) : Bool := index = 6 || index = 41 || index = 51

/-- The command word that a number stands for, as spec/opcode_table.json numbers its bits: the CMDR half is bits 31:0,
the ARGR half bits 63:32; bits from `nbits` up are 0; the positions are the default layout's (log 11). -/
def tableWord (nbits w : Nat) : CmdWord :=
  ⟨BitVec.ofNat 32 (w % 2 ^ nbits / 2 ^ 32), BitVec.ofNat 32 (w % 2 ^ nbits)⟩

/-- The prefix bit that the word of a table row is decoded with (log 11). -/
def tablePrefix (nbits w : Nat) : Bool := prefixOfIndex ((tableWord nbits w).cmdr.extractLsb' standardLayout.cmdindex 6).toNat

/-- The instruction the decoder reads from a word of the opcode table. -/
def decodeTableWord (nbits w : Nat) : Option Instr :=
  match decode standardLayout (tablePrefix nbits w) (tableWord nbits w) with
  | .instr i => some i
  | .reject _ => none

end Sys2Proof
end

