-- ==== Sys2Proof/Machine/State.lean ====
section
/-! DEFINITION. The state of the machine, as plain data: the controller registers (10_state.md R50), the Session record
(R20 to R27, 40_engine.md R148), the transfer record (R30), the program counter (R40, R41), the interrupt (60_exceptions.md
R264, R270), and the interfaces to HOST and ENV. Reset: 10_state.md R69, 70_reset_and_hazards.md R300. -/

namespace Sys2Proof.Machine

/-- Four 32-bit words: CID, CSD, a long response (10_state.md R21, R22, R56). -/
structure Words4 where
  w0 : Word
  w1 : Word
  w2 : Word
  w3 : Word
deriving DecidableEq, Repr, Inhabited

/-- The two FIFO words of the SCR, in the order read (10_state.md R24). -/
structure Words2 where
  w0 : Word
  w1 : Word
deriving DecidableEq, Repr, Inhabited

/-- The error kinds (60_exceptions.md R260). -/
inductive ErrKind where
  | timeout
  | crcFailure
  /-- in the taxonomy; no rule produces it (90_conflicts.md C1) -/
  | unexpectedResponse
  | capacityUnsupported
  | busWidthUnsupported
  | cardUnsupported
  | transferError
deriving DecidableEq, Repr, Inhabited

/-- The outcome of a BringUp or of a wait: Ready or an error kind (10_state.md R27, 60_exceptions.md R277). -/
inductive Outcome where
  | ready
  | error (e : ErrKind)
deriving DecidableEq, Repr, Inhabited

/-- The engine's outcomes (00_scope.md R11, D6). -/
inductive EngOutcome where
  | success
  | crcFailure
  | hwTimeout
  | budgetExhausted
deriving DecidableEq, Repr, Inhabited

/-- The drain's outcomes (00_scope.md R11). -/
inductive DrainOutcome where
  | success
  | crcFailure
  | timeout
deriving DecidableEq, Repr, Inhabited

/-- The session registers by name, for the fault UnwrittenRead (10_state.md R21 to R27, 60_exceptions.md R263). -/
inductive SessReg where
  | cid
  | csd
  | rca
  | scrRaw
  | scr
  | version2
  | ocr
  | result
  | diagStatus
  | lastStatus
deriving DecidableEq, Repr, Inhabited

/-- The Session record (10_state.md R20) and the engine's scratch register `last_status` (40_engine.md R148). `none` is
the spec's own state "unwritten" (00_scope.md R9, 10_state.md R69), their value at reset; that it is written as an `Option` is
log 5. -/
structure Session where
  cid : Option Words4
  csd : Option Words4
  rca : Option Word
  scrRaw : Option Words2
  scr : Option DWord
  version2 : Option Bool
  ocr : Option Word
  result : Option Outcome
  diagStatus : Option Word
  lastStatus : Option Word
deriving DecidableEq, Repr, Inhabited

/-- Every session register unwritten: at reset and at the start of every BringUp (10_state.md R69). -/
def Session.unwritten : Session := ⟨none, none, none, none, none, none, none, none, none, none⟩

/-- The transfer record (10_state.md R30). -/
structure Transfer where
  completed : Bool
  error : Bool
  multiBlock : Bool
  status : Word
  inFlight : Bool
deriving DecidableEq, Repr, Inhabited

/-- The fields of the transfer record that SEQ may read (20_memory.md R80). -/
inductive RecField where
  | completed
  | error
  | multiBlock
  | status
deriving DecidableEq, Repr, Inhabited

/-- The sequencer states, the values of `pc` (10_state.md R40). -/
inductive SeqState where
  | off
  | powerUp
  | idle
  | versionProbe
  | voltageNegotiation
  | capacityCheck
  | identification
  | addressing
  | csdRetrieval
  | selection
  | configurationRetrieval
  | busWidthNegotiation
  | speedTransition
  | readyCheck
  | ready
  | failed (e : ErrKind)
deriving DecidableEq, Repr, Inhabited

/-- The program counter: the sequencer state (10_state.md R40) with the position inside it and its loop counter (R41). A
point `…Issue`, `…Len`, `…Prefix`, `…Scr`, `…Set` or `…Cond` is about to issue a command word; the point `…Reply` after
it takes the outcome of that word. -/
inductive SeqPoint where
  | off
  | powerUp
  | idleIssue
  | idleReply
  | probeIssue (trial : Nat)
  | probeReply (trial : Nat)
  | voltPrefix (round : Nat)
  | voltPrefixReply (round : Nat)
  | voltCond (round : Nat)
  | voltCondReply (round : Nat)
  | capacity
  | identIssue
  | identReply
  | addrIssue
  | addrReply
  | csdIssue
  | csdReply
  | selectIssue
  | selectReply
  | configLen
  | configLenReply
  | configPrefix
  | configPrefixReply
  | configPrime
  | configScr
  | configScrReply
  | configDrain
  | widthPrefix
  | widthPrefixReply
  | widthSet
  | widthSetReply
  | speed
  | readyIssue (query : Nat)
  | readyReply (query : Nat)
  | ready
  | failed (e : ErrKind)
deriving DecidableEq, Repr, Inhabited

/-- The value of `pc` in 10_state.md R40 that a point belongs to. -/
def SeqPoint.state : SeqPoint → SeqState
  | .off => .off
  | .powerUp => .powerUp
  | .idleIssue => .idle
  | .idleReply => .idle
  | .probeIssue _ => .versionProbe
  | .probeReply _ => .versionProbe
  | .voltPrefix _ => .voltageNegotiation
  | .voltPrefixReply _ => .voltageNegotiation
  | .voltCond _ => .voltageNegotiation
  | .voltCondReply _ => .voltageNegotiation
  | .capacity => .capacityCheck
  | .identIssue => .identification
  | .identReply => .identification
  | .addrIssue => .addressing
  | .addrReply => .addressing
  | .csdIssue => .csdRetrieval
  | .csdReply => .csdRetrieval
  | .selectIssue => .selection
  | .selectReply => .selection
  | .configLen => .configurationRetrieval
  | .configLenReply => .configurationRetrieval
  | .configPrefix => .configurationRetrieval
  | .configPrefixReply => .configurationRetrieval
  | .configPrime => .configurationRetrieval
  | .configScr => .configurationRetrieval
  | .configScrReply => .configurationRetrieval
  | .configDrain => .configurationRetrieval
  | .widthPrefix => .busWidthNegotiation
  | .widthPrefixReply => .busWidthNegotiation
  | .widthSet => .busWidthNegotiation
  | .widthSetReply => .busWidthNegotiation
  | .speed => .speedTransition
  | .readyIssue _ => .readyCheck
  | .readyReply _ => .readyCheck
  | .ready => .ready
  | .failed e => .failed e

/-- What `command` returns to its caller (40_engine.md R147): the outcome, and the response words last read (a short
response is `resp.w0`). The model's own register (log 16). -/
structure Reply where
  out : EngOutcome
  resp : Words4
deriving DecidableEq, Repr, Inhabited

/-- The engine's side of the state: the command word that the next step decodes and runs (log 10), the decoder's prefix
bit (30_encoding.md R109), and the last command's return value. -/
structure Engine where
  slot : Option CmdWord
  appPending : Bool
  reply : Reply
deriving DecidableEq, Repr, Inhabited

/-- The loop counters inside an engine or drain operation (10_state.md R41): the poll iteration `k` and, in a drain, the
word count `n`. They are unwritten outside such an operation; a step runs an operation whole (log 33). -/
structure LoopCount where
  k : Option Nat
  n : Option Nat
deriving DecidableEq, Repr, Inhabited

/-- Both counters unwritten: no engine or drain operation is under way. -/
def LoopCount.idle : LoopCount := ⟨none, none⟩

/-- What WaitTransfer returns (60_exceptions.md R277). -/
inductive WaitRet where
  | done (o : Outcome) (status : Word)
  | timeout
deriving DecidableEq, Repr, Inhabited

/-- SEQ's side of the state: the program counter, the dividers BringUp computed at entry (43_sequencer.md R210; log 15),
the polls left in a running WaitTransfer and its last return value (60_exceptions.md R277; log 18), and for 20_memory.md
R80 whether SEQ has read `completed = true` for the current transfer and what StartTransfer wrote to multi_block
(log 17). -/
structure Seq where
  pc : SeqPoint
  initDiv : BitVec 10
  speedDiv : BitVec 10
  wait : Option Nat
  waitRet : Option WaitRet
  acquired : Bool
  startMulti : Bool
deriving DecidableEq, Repr, Inhabited

/-- Where the completion handler is (60_exceptions.md R270 to R275): not running, about to dispatch, about to issue
CMD12, about to take CMD12's outcome, about to release. -/
inductive IrqPhase where
  | idle
  | dispatch
  | stop
  | collect
  | release
deriving DecidableEq, Repr, Inhabited

/-- The interrupt: whether the platform has routed and enabled it (60_exceptions.md R270, R290; log 9), whether the line
was found raised at a preemption point since the handler last ran (R264; log 8), and where the handler is. -/
structure Irq where
  routed : Bool
  latched : Bool
  phase : IrqPhase
deriving DecidableEq, Repr, Inhabited

/-- What HOST asks for (00_scope.md R6, 60_exceptions.md R276, R277, R290; log 13). -/
inductive HostOp where
  /-- BringUp (43_sequencer.md R210) -/
  | bringUp (rate : Nat)
  /-- StartTransfer (60_exceptions.md R276) -/
  | startTransfer (multi : Bool)
  /-- WaitTransfer (60_exceptions.md R277) -/
  | waitTransfer
  /-- begin_short_read, called directly (41_datapath.md R160) -/
  | shortRead (bytes : Nat)
  /-- a read of the register window, with its width in bytes (00_scope.md R9, 20_memory.md R71) -/
  | memRead (addr : Word) (width : Nat)
  /-- a write of the register window (00_scope.md R9, 20_memory.md R71) -/
  | memWrite (addr : Word) (width : Nat) (value : Word)
  /-- a read of one field of the transfer record (20_memory.md R80) -/
  | readRecord (f : RecField)
  /-- the platform routes and enables the interrupt line (70_reset_and_hazards.md R305 item 5) -/
  | routeIrq
deriving DecidableEq, Repr, Inhabited

/-- One call in HOST's queue. A serialised call waits until SEQ is free; one that is not comes from another execution
context and is taken at once (60_exceptions.md R278; log 13). -/
structure HostCall where
  op : HostOp
  serialised : Bool
deriving DecidableEq, Repr, Inhabited

/-- ENV: the answers its script holds, in the order given for each port, and the counter its free values are drawn with
(20_memory.md R74; log 3). -/
structure Env where
  script : List (EnvPort × Word)
  tick : Nat
deriving DecidableEq, Repr, Inhabited

/-- The bus lines the pin service configures (43_sequencer.md R211). -/
inductive PinLine where
  | clk
  | cmd
  | d0
  | d1
  | d2
  | d3
deriving DecidableEq, Repr, Inhabited

/-- One action the block makes that ENV or HOST sees (20_memory.md R75, 30_encoding.md R130; log 19). -/
inductive Event where
  | read (r : Reg) (value : Word)
  | write (r : Reg) (value : Word)
  | pin (line : PinLine) (af : Nat)
  | delay (us : Nat)
  | record (f : RecField) (value : Word)
deriving DecidableEq, Repr, Inhabited

/-- The whole state. -/
structure State where
  /-- the machine's parameters; no step changes them (log 2) -/
  params : Params
  /-- the controller registers -/
  regs : Regs
  /-- the Session record and `last_status` -/
  session : Session
  /-- the transfer record -/
  xfer : Transfer
  /-- the command engine -/
  engine : Engine
  /-- the counters of a running poll loop -/
  loop : LoopCount
  /-- SEQ -/
  seq : Seq
  /-- IRQ -/
  irq : Irq
  /-- HOST's queue of calls -/
  calls : List HostCall
  /-- ENV -/
  env : Env
  /-- every access and service call so far, newest first -/
  trace : List Event
deriving DecidableEq, Repr

/-- The faults of 60_exceptions.md R263. -/
inductive Fault where
  /-- Raised by a sequencer action that reads an unwritten session register (60_exceptions.md R263, 00_scope.md R9,
  92_eei_decisions.md D31). The spec's own; safe. -/
  | unwrittenRead (f : SessReg)
  /-- Raised by the handler's entry when no transfer is in flight (60_exceptions.md R270). The spec's own; safe. -/
  | handlerOutsideTransfer
deriving DecidableEq, Repr, Inhabited

/-- The refusals of 60_exceptions.md R263, and the words that are no instruction. -/
inductive Refusal where
  /-- Raised by BringUp while one runs or a transfer is in flight, by SEQ's use of the engine or the data path while a
  transfer is in flight, and by a call from a second context while SEQ is busy (60_exceptions.md R278). Safe. -/
  | concurrent
  /-- Raised by BringUp (43_sequencer.md R210, D19). Safe. -/
  | clockOutOfRange
  /-- Raised by begin_short_read (41_datapath.md R160). Safe. -/
  | badByteCount
  /-- Raised by a register access that is not a 32-bit aligned access of the table (20_memory.md R71). Safe. -/
  | badAccess
  /-- Raised by StartTransfer (60_exceptions.md R276). Safe. -/
  | notReady
  /-- Raised by a step whose command word is "not an instruction of this block" (30_encoding.md R110). Safe. -/
  | notAnInstruction (why : DecodeReject)
  /-- Raised by `exec` for an instruction that has no meaning yet: none. Safe. -/
  | notModelled (mnemonic : String)
deriving DecidableEq, Repr, Inhabited

/-- The outcome of one step: a next state, a fault or a refusal (00_scope.md R12). -/
abbrev StepResult := Host.Outcome State Fault Refusal

/-- Every controller register at its reset value (10_state.md R50). -/
def Regs.reset : Regs := ⟨0, 0, 0, 0, 0, 0, 0, 0, 0, 0, 0, 0, 0, 0, 0, 0, 0⟩

/-- The machine right after reset (10_state.md R69, 70_reset_and_hazards.md R300): controller registers 0, session
registers unwritten, the transfer record clear, `pc = Off`, no call made, ENV's script empty. -/
def State.reset : State where
  params := { Config.params with layout := standardLayout }
  regs := Regs.reset
  session := Session.unwritten
  xfer := ⟨false, false, false, 0, false⟩
  engine := ⟨none, false, ⟨.success, ⟨0, 0, 0, 0⟩⟩⟩
  loop := LoopCount.idle
  seq := ⟨.off, 0, 0, none, none, true, false⟩
  irq := ⟨false, false, .idle⟩
  calls := []
  env := ⟨[], 0⟩
  trace := []

/-- Replace the controller registers. -/
def State.setRegs (s : State) (v : Regs) : State := { s with regs := v }
/-- Replace the Session record. -/
def State.setSession (s : State) (v : Session) : State := { s with session := v }
/-- Replace the transfer record. -/
def State.setXfer (s : State) (v : Transfer) : State := { s with xfer := v }
/-- Replace the engine's part. -/
def State.setEngine (s : State) (v : Engine) : State := { s with engine := v }
/-- Replace the loop counters. -/
def State.setLoop (s : State) (v : LoopCount) : State := { s with loop := v }
/-- Replace SEQ's part. -/
def State.setSeq (s : State) (v : Seq) : State := { s with seq := v }
/-- Move the program counter. -/
def State.setPc (s : State) (v : SeqPoint) : State := { s with seq := { s.seq with pc := v } }
/-- Replace IRQ's part. -/
def State.setIrq (s : State) (v : Irq) : State := { s with irq := v }
/-- Replace HOST's queue. -/
def State.setCalls (s : State) (v : List HostCall) : State := { s with calls := v }
/-- Replace ENV's part. -/
def State.setEnv (s : State) (v : Env) : State := { s with env := v }
/-- Record one access or service call. -/
def State.emit (s : State) (e : Event) : State := { s with trace := e :: s.trace }

end Sys2Proof.Machine
end

