-- ==== Sys2Proof/Machine/Flags.lean ====
section
/-! DEFINITION. What the status flags mean: the outcome of a terminal status word (40_engine.md R144), of a drain
(41_datapath.md R162), the acceptance of a CRC-failed R3 (40_engine.md R147), the error an outcome maps to (00_scope.md R11)
and the interrupt line (60_exceptions.md R264). The flags' positions are the layout's (10_state.md R60). -/

namespace Sys2Proof.Machine

/-- CMDSENT, the one exit of `await_sent` (40_engine.md R142). -/
def sentSeen (l : Layout) (st : Word) : Bool := st.getLsbD l.cmdsent

/-- The exit of `await_response`: a terminal flag, and the command path no longer active (40_engine.md R143). -/
def responseSeen (l : Layout) (st : Word) : Bool := st &&& termFlags l != 0 && !st.getLsbD l.cpsmact

/-- The outcome of a terminal status word: CTIMEOUT, then CCRCFAIL, then Success (40_engine.md R144). -/
def classify (l : Layout) (st : Word) : EngOutcome :=
  if st.getLsbD l.ctimeout then .hwTimeout else if st.getLsbD l.ccrcfail then .crcFailure else .success

/-- A CRC failure of an R3 response counts as received when `P_R3_CRC_ACCEPT` (40_engine.md R147, D8). -/
def acceptR3 (p : Params) (sd : SdResp) (o : EngOutcome) : EngOutcome :=
  if o = .crcFailure ∧ sd = .r3 ∧ p.r3CrcAccept = true then .success else o

/-- The error an engine outcome maps to; Success maps to none (00_scope.md R11). -/
def toErr : EngOutcome → Option ErrKind
  | .success => none
  | .crcFailure => some .crcFailure
  | .hwTimeout => some .timeout
  | .budgetExhausted => some .timeout

/-- The error a drain outcome is; Success is none (43_sequencer.md R220). -/
def DrainOutcome.err : DrainOutcome → Option ErrKind
  | .success => none
  | .crcFailure => some .crcFailure
  | .timeout => some .timeout

/-- The drain outcome of a receive overrun (41_datapath.md R162, D12). -/
def overrunOutcome (p : Params) : DrainOutcome :=
  match p.overrunResult with
  | .crcFailure => .crcFailure
  | .timeout => .timeout

/-- The outcome of a drain that ended on the terminal word `term` (if any) with `n` of `e` words read
(41_datapath.md R162). -/
def drainOutcome (p : Params) (term : Option Word) (n e : Nat) : DrainOutcome :=
  match term with
  | some st =>
    if st.getLsbD p.layout.dtimeout then .timeout
    else if st.getLsbD p.layout.dcrcfail then .crcFailure
    else if st.getLsbD p.layout.rxoverr then overrunOutcome p
    else .timeout
  | none => if e ≤ n then .success else .timeout

/-- The numeric code of a BringUp or wait outcome (60_exceptions.md R261). -/
def Outcome.code : Outcome → Nat
  | .ready => 0
  | .error .timeout => 1
  | .error .crcFailure => 2
  | .error .unexpectedResponse => 3
  | .error .capacityUnsupported => 4
  | .error .busWidthUnsupported => 5
  | .error .cardUnsupported => 6
  | .error .transferError => 7

/-- The interrupt line is raised while an enabled flag is set (60_exceptions.md R264). -/
def lineRaised (maskr star : Word) : Bool := star &&& maskr != 0

end Sys2Proof.Machine
end

