-- ==== Sys2Proof/Machine/Ops.lean ====
section
/-! DEFINITION. The named operations over the state: ENV's answers (20_memory.md R74), register accesses (00_scope.md R9,
20_memory.md R71 to R75), preemption points (60_exceptions.md R265), the entry of the interrupt handler and the return
from it (60_exceptions.md R270, R275, R279), failing a BringUp (43_sequencer.md R226), and how a meaning's result is
passed on. -/

namespace Sys2Proof.Machine

/-- Run `f` on the next state; a fault or a refusal ends the step. -/
def andThen (r : StepResult) (f : State → StepResult) : StepResult :=
  match r with
  | .next s => f s
  | .fault e => .fault e
  | .refused e => .refused e

/-- Change the next state by `f`; a fault or a refusal ends the step. -/
def onNext (r : StepResult) (f : State → State) : StepResult :=
  match r with
  | .next s => .next (f s)
  | .fault e => .fault e
  | .refused e => .refused e

/-! ### ENV -/

/-- The first answer a script holds for a port, with the rest of the script (20_memory.md R74). -/
def envTake (p : EnvPort) : List (EnvPort × Word) → Option (Word × List (EnvPort × Word))
  | [] => none
  | (q, w) :: t =>
    if q = p then some (w, t)
    else
      match envTake p t with
      | none => none
      | some (v, rest) => some (v, (q, w) :: rest)

/-- ENV's next answer at a port: the script's, else a free value (log 3). -/
def envValue (p : EnvPort) (s : State) : Word :=
  match envTake p s.env.script with
  | some (w, _) => w
  | none => Config.envAnswer p s.env.tick

/-- The state after ENV has given that answer. -/
def envNext (p : EnvPort) (s : State) : State :=
  match envTake p s.env.script with
  | some (_, rest) => s.setEnv ⟨rest, s.env.tick⟩
  | none => s.setEnv ⟨s.env.script, s.env.tick + 1⟩

/-! ### Registers -/

/-- Make a register hold a word. -/
def Regs.set (g : Regs) (r : Reg) (v : Word) : Regs :=
  match r with
  | .power => { g with power := v }
  | .clkcr => { g with clkcr := v }
  | .argr => { g with argr := v }
  | .cmdr => { g with cmdr := v }
  | .respcmdr => { g with respcmdr := v }
  | .resp1 => { g with resp1 := v }
  | .resp2 => { g with resp2 := v }
  | .resp3 => { g with resp3 := v }
  | .resp4 => { g with resp4 := v }
  | .dtimer => { g with dtimer := v }
  | .dlenr => { g with dlenr := v }
  | .dctrl => { g with dctrl := v }
  | .star => { g with star := v }
  | .icr => { g with icr := v }
  | .maskr => { g with maskr := v }
  | .idmactrlr => { g with idmactrlr := v }
  | .fifor => { g with fifor := v }

/-- The port at which ENV answers the reads of a register, if it does (20_memory.md R74). -/
def Reg.port : Reg → Option EnvPort
  | .respcmdr => some .respcmdr
  | .resp1 => some .resp1
  | .resp2 => some .resp2
  | .resp3 => some .resp3
  | .resp4 => some .resp4
  | .star => some .star
  | .fifor => some .fifor
  | .power => none
  | .clkcr => none
  | .argr => none
  | .cmdr => none
  | .dtimer => none
  | .dlenr => none
  | .dctrl => none
  | .icr => none
  | .maskr => none
  | .idmactrlr => none

/-- The registers after a whole write: a read-only register keeps its value, an ICR bit written 1 clears its STAR flag
(10_state.md R61, 20_memory.md R73), reserved bits are written 0 (10_state.md R64; log 14). -/
def Regs.store (l : Layout) (g : Regs) (r : Reg) (v : Word) : Regs :=
  match r.port with
  | some _ => g
  | none =>
    if r = .icr then { g with icr := v &&& l.rw.icr, star := g.star &&& ~~~(v &&& stickyFlags l) }
    else g.set r (v &&& l.rw.get r)

/-! ### Preemption points -/

/-- Whether the line can reach the handler at all: the platform has enabled it and some source is enabled
(60_exceptions.md R264, R270). -/
def canInterrupt (s : State) : Bool := s.irq.routed && s.regs.maskr != 0

/-- Whether SEQ is the running agent. -/
def seqRuns (s : State) : Bool := s.irq.phase == .idle

/-- STAR where ENV answers `w`: a sticky flag that was set stays set until it is cleared through ICR (10_state.md R60; log
20). -/
def starShown (w : Word) (s : State) : Word := w ||| (s.regs.star &&& stickyFlags s.params.layout)

/-- A preemption point of SEQ (60_exceptions.md R265 item 1): ENV shows the flags it has set by now, and a raised line
requests the handler. IRQ has none (R279). Where the line cannot reach the handler nothing is sampled (log 8). -/
def point (s : State) : State :=
  if seqRuns s && canInterrupt s then
    let w := starShown (envValue .flags s) s
    let t := envNext .flags s
    { t with
      regs := { t.regs with star := w }
      irq := { t.irq with latched := t.irq.latched || lineRaised t.regs.maskr w } }
  else s

/-! ### Accesses -/

/-- The value of a register read (00_scope.md R9 `Reg`; 20_memory.md R74): ENV's answer, with the sticky flags for STAR
(10_state.md R60). -/
def readValue (r : Reg) (s : State) : Word :=
  match r.port with
  | some p => if r = .star then starShown (envValue p s) s else envValue p s
  | none => s.regs.get r &&& s.params.layout.rw.get r

/-- The state after a register read: ENV's answer is used up and held in the register, the access is recorded. -/
def readNext (r : Reg) (s : State) : State :=
  let v := readValue r s
  let t :=
    match r.port with
    | some p => (envNext p s).setRegs (s.regs.set r v)
    | none => s
  point (t.emit (.read r v))

/-- A whole register write (00_scope.md R9 `Reg(NAME) <- v`). -/
def writeReg (r : Reg) (v : Word) (s : State) : State :=
  point ((s.setRegs (s.regs.store s.params.layout r v)).emit (.write r v))

/-- The word a read-modify-write leaves: the masked bits replaced, every other bit kept, reserved bits among them
(00_scope.md R9 `RMW`, 10_state.md R64). -/
def rmwWord (old mask v : Word) : Word := (old &&& ~~~mask) ||| (v &&& mask)

/-- A read-modify-write: one read, then one write, with a preemption point between (00_scope.md R9, 20_memory.md R72). -/
def rmw (r : Reg) (mask v : Word) (s : State) : State :=
  let t := readNext r s
  let w := rmwWord (t.regs.get r) mask v
  point ((t.setRegs (t.regs.set r w)).emit (.write r w))

/-- The register at an address of the window, for a naturally aligned access of 4 bytes; nothing for any other access
(20_memory.md R71). The spec gives `P_BASE` no alignment: where it is no multiple of 4 every register's address is misaligned
and every access by address is refused, while the block's own accesses, which go by name, are made (log 31). -/
def regAt (p : Params) (addr : Word) (width : Nat) : Option Reg :=
  if width = 4 ∧ addr.extractLsb' 0 2 = 0 then Reg.all.find? (fun r => p.base + p.layout.offset.get r == addr) else none

/-! ### The interrupt -/

/-- Entry of the completion handler (60_exceptions.md R270): a fault outside a transfer; else the handler runs from its
dispatch. It saves and changes no mode, mask or stack of the block. -/
def irqEnter (s : State) : StepResult :=
  if s.xfer.inFlight then .next (s.setIrq { s.irq with latched := false, phase := .dispatch })
  else .fault .handlerOutsideTransfer

/-- Return from the handler (60_exceptions.md R275, R279): the preempted context resumes; the block restores nothing. The
line is looked at again, so a flag raised during the handler, or one it left set, can enter it anew (R279, D46). -/
def irqReturn (s : State) : State := point (s.setIrq { s.irq with latched := false, phase := .idle })

/-- End a step of SEQ: if the line was raised at one of its preemption points outside a transfer, the handler was entered
there and faulted (60_exceptions.md R270); else the next state stands. `s` is the state before the step (log 7). -/
def seqCommit (s : State) (r : StepResult) : StepResult :=
  andThen r fun t =>
    if canInterrupt s && t.irq.latched && !t.xfer.inFlight then .fault .handlerOutsideTransfer else .next t

/-- SEQ writes one field of the transfer record, and a preemption point follows (60_exceptions.md R265 item 1, 20_memory.md
R75, R81): the handler entered there outside a transfer is its fault (60_exceptions.md R270). -/
def recordWrite (f : Transfer → Transfer) (s : State) : StepResult :=
  seqCommit s (.next (point (s.setXfer (f s.xfer))))

/-- SEQ may not use the engine or the data path while a transfer is in flight (60_exceptions.md R278). -/
def engineBusy (s : State) : Bool := seqRuns s && s.xfer.inFlight

/-! ### BringUp's results -/

/-- `fail E` (00_scope.md R10, 43_sequencer.md R226). -/
def fail (e : ErrKind) (s : State) : State :=
  (s.setSession { s.session with
    result := some (.error e)
    diagStatus := match s.session.lastStatus with | some w => some w | none => s.session.diagStatus }).setPc (.failed e)

/-- Read a session register: an unwritten one is `raise Fault(UnwrittenRead f)` (00_scope.md R9, 60_exceptions.md R263,
70_reset_and_hazards.md R300, 92_eei_decisions.md D31, 93_implementation_defined.md U15). -/
def withSession {α : Type} (f : SessReg) (v : Option α) (k : α → StepResult) : StepResult :=
  match v with
  | some a => k a
  | none => .fault (.unwrittenRead f)

end Sys2Proof.Machine
end

