-- ==== Sys2Proof/Machine/Engine.lean ====
section
/-! DEFINITION. The Command/Response Engine (40_engine.md R140 to R149). -/

namespace Sys2Proof.Machine

/-- `send` (40_engine.md R140): the argument register, then the command register by read-modify-write. -/
def send (row : Row) (arg : Word) (s : State) : State :=
  rmw .cmdr (cmdFields s.params.layout) (cmdw s.params.layout row.index row.kind) (writeReg .argr arg s)

/-- The poll iteration `k` that follows: 0 for the first (10_state.md R41). -/
def nextIteration : Option Nat → Nat
  | none => 0
  | some k => k + 1

/-- One poll of the status register: count it, read the register and note the word in `last_status` (10_state.md R41,
40_engine.md R142, R143, R148). -/
def pollNext (s : State) : State :=
  let st := readValue .star s
  let t := readNext .star s
  (t.setSession { t.session with lastStatus := some st }).setLoop { t.loop with k := some (nextIteration t.loop.k) }

/-- Leave an engine or drain operation: clear its flags by one write of ICR (40_engine.md R149, 70_reset_and_hazards.md
R314); its counters are unwritten from then on (10_state.md R41). -/
def leaveLoop (flags : Word) (s : State) : State := (writeReg .icr flags s).setLoop LoopCount.idle

/-- Poll until `stop` holds of the status word, at most `n` times; the word it stopped on, if it did (92_eei_decisions.md
D10: one read per iteration, a condition met on the last read counts). -/
def poll (stop : Word → Bool) : Nat → State → Option Word × State
  | 0, s => (none, s)
  | n + 1, s =>
    let st := readValue .star s
    if stop st then (some st, pollNext s) else poll stop n (pollNext s)

/-- `await_sent` (40_engine.md R142). -/
def awaitSent (n : Nat) (s : State) : EngOutcome × State :=
  let r := poll (sentSeen s.params.layout) n s
  (match r.1 with | some _ => .success | none => .budgetExhausted, leaveLoop (cmdFlags s.params.layout) r.2)

/-- `await_response` (40_engine.md R143, R144). -/
def awaitResponse (n : Nat) (s : State) : EngOutcome × State :=
  let r := poll (responseSeen s.params.layout) n s
  (match r.1 with | some st => classify s.params.layout st | none => .budgetExhausted,
   leaveLoop (cmdFlags s.params.layout) r.2)

/-- Put response words into the reply. -/
def setResp (q : Words4) (s : State) : State :=
  s.setEngine { s.engine with reply := { s.engine.reply with resp := q } }

/-- `read_response` (40_engine.md R145): RESP1 for a short response, RESP1 to RESP4 in that order for a long one. -/
def readResponse (kind : RespKind) (s : State) : State :=
  match kind with
  | .none => s
  | .short => setResp { s.engine.reply.resp with w0 := readValue .resp1 s } (readNext .resp1 s)
  | .long =>
    let s1 := readNext .resp1 s
    let s2 := readNext .resp2 s1
    let s3 := readNext .resp3 s2
    let s4 := readNext .resp4 s3
    setResp ⟨readValue .resp1 s, readValue .resp2 s1, readValue .resp3 s2, readValue .resp4 s3⟩ s4

/-- Put the outcome into the reply. -/
def setOut (o : EngOutcome) (s : State) : State :=
  s.setEngine { s.engine with reply := { s.engine.reply with out := o } }

/-- The wait of `command`: `await_sent` for a word without response, else `await_response` (40_engine.md R147). -/
def awaitRow (row : Row) (n : Nat) (s : State) : EngOutcome × State :=
  match row.kind with
  | .none => awaitSent s.params.sentBudget s
  | .short => awaitResponse n s
  | .long => awaitResponse n s

/-- `command` (40_engine.md R147): send the word, wait for it, accept a CRC-failed R3 where the parameter says so, and on
Success read the response. Its return value is left in the reply. -/
def command (row : Row) (arg : Word) (n : Nat) (s : State) : State :=
  let r := awaitRow row n (send row arg s)
  let o := acceptR3 s.params row.sdResp r.1
  setOut o (if o = .success then readResponse row.kind r.2 else r.2)

/-- Issue a command word: refused while a transfer is in flight and SEQ issues it (40_engine.md R140, 60_exceptions.md
R278), else `command`. -/
def issue (row : Row) (arg : Word) (n : Nat) (s : State) : StepResult :=
  if engineBusy s then .refused .concurrent else .next (command row arg n s)

/-- What a command does with its response: the session record changes on Success only (42_commands.md). -/
def keepResponse (f : Words4 → Session → Session) (s : State) : State :=
  match s.engine.reply.out with
  | .success => s.setSession (f s.engine.reply.resp s.session)
  | .crcFailure => s
  | .hwTimeout => s
  | .budgetExhausted => s

end Sys2Proof.Machine
end

