-- ==== Sys2Proof/Machine/Commands.lean ====
section
/-! DEFINITION. The meaning of each command word (42_commands.md R180 to R193), one definition per instruction: `command`
of 40_engine.md R147 with the row, the word's argument and the budget, then the session register the rule names. -/

namespace Sys2Proof.Machine

/-- go-idle: `send` then `await_sent`; no response, no session write (42_commands.md R180). -/
def execCmd0 (arg : Word) (s : State) : StepResult :=
  issue (Instr.cmd0 arg).row arg s.params.respBudget s

/-- send-operating-condition (MMC): never issued by the block; treated as ACMD41's response is (log 23) (42_commands.md R181). -/
def execCmd1 (arg : Word) (s : State) : StepResult :=
  onNext (issue (Instr.cmd1 arg).row arg s.params.respBudget s) (keepResponse fun q t => { t with ocr := some q.w0 })

/-- all-send-CID: on Success the four response words are the CID (42_commands.md R182). -/
def execCmd2 (arg : Word) (s : State) : StepResult :=
  onNext (issue (Instr.cmd2 arg).row arg s.params.respBudget s) (keepResponse fun q t => { t with cid := some q })

/-- send-relative-address: on Success the whole response word is the RCA (42_commands.md R183). -/
def execCmd3 (arg : Word) (s : State) : StepResult :=
  onNext (issue (Instr.cmd3 arg).row arg s.params.respBudget s) (keepResponse fun q t => { t with rca := some q.w0 })

/-- select/deselect-card: the response is read and discarded (42_commands.md R184). -/
def execCmd7 (arg : Word) (s : State) : StepResult :=
  issue (Instr.cmd7 arg).row arg s.params.respBudget s

/-- send-interface-condition: the response is read and not examined (D14) (42_commands.md R185). -/
def execCmd8 (arg : Word) (s : State) : StepResult :=
  issue (Instr.cmd8 arg).row arg s.params.respBudget s

/-- send-CSD: on Success the four response words are the CSD (42_commands.md R186). -/
def execCmd9 (arg : Word) (s : State) : StepResult :=
  onNext (issue (Instr.cmd9 arg).row arg s.params.respBudget s) (keepResponse fun q t => { t with csd := some q })

/-- stop-transmission: awaited with `P_STOP_BUDGET`; the handler takes the outcome (60_exceptions.md R273) (42_commands.md R187). -/
def execCmd12 (arg : Word) (s : State) : StepResult :=
  issue (Instr.cmd12 arg).row arg s.params.stopBudget s

/-- send-status: the ready check takes the card state from the reply (43_sequencer.md R224) (42_commands.md R188). -/
def execCmd13 (arg : Word) (s : State) : StepResult :=
  issue (Instr.cmd13 arg).row arg s.params.respBudget s

/-- set-block-length: the response is read and discarded (42_commands.md R189). -/
def execCmd16 (arg : Word) (s : State) : StepResult :=
  issue (Instr.cmd16 arg).row arg s.params.respBudget s

/-- application-command-prefix: the echoed index is checked by voltage negotiation only (43_sequencer.md R214) (42_commands.md R190). -/
def execCmd55 (arg : Word) (s : State) : StepResult :=
  issue (Instr.cmd55 arg).row arg s.params.respBudget s

/-- set-bus-width: the controller's own bus width changes at the speed transition only (42_commands.md R191). -/
def execAcmd6 (arg : Word) (s : State) : StepResult :=
  issue (Instr.acmd6 arg).row arg s.params.respBudget s

/-- send-operating-condition (SD): a CRC-failed R3 counts as received under `P_R3_CRC_ACCEPT`; on Success the response is the OCR (42_commands.md R192). -/
def execAcmd41 (arg : Word) (s : State) : StepResult :=
  onNext (issue (Instr.acmd41 arg).row arg s.params.respBudget s) (keepResponse fun q t => { t with ocr := some q.w0 })

/-- send-SCR: the command phase; the sequencer drains the 8 data bytes after it (43_sequencer.md R220) (42_commands.md R193). -/
def execAcmd51 (arg : Word) (s : State) : StepResult :=
  issue (Instr.acmd51 arg).row arg s.params.respBudget s

end Sys2Proof.Machine
end

