-- ==== Sys2Proof/Machine/Dispatch.lean ====
section
/-! DEFINITION. The dispatch: one arm per instruction. -/

namespace Sys2Proof.Machine

def exec (i : Instr) (s : State) : Host.Outcome State Fault Refusal :=
  match i with
  | .cmd0 arg => Sys2Proof.Machine.execCmd0 arg s
  | .cmd1 arg => Sys2Proof.Machine.execCmd1 arg s
  | .cmd2 arg => Sys2Proof.Machine.execCmd2 arg s
  | .cmd3 arg => Sys2Proof.Machine.execCmd3 arg s
  | .cmd7 arg => Sys2Proof.Machine.execCmd7 arg s
  | .cmd8 arg => Sys2Proof.Machine.execCmd8 arg s
  | .cmd9 arg => Sys2Proof.Machine.execCmd9 arg s
  | .cmd12 arg => Sys2Proof.Machine.execCmd12 arg s
  | .cmd13 arg => Sys2Proof.Machine.execCmd13 arg s
  | .cmd16 arg => Sys2Proof.Machine.execCmd16 arg s
  | .cmd55 arg => Sys2Proof.Machine.execCmd55 arg s
  | .acmd6 arg => Sys2Proof.Machine.execAcmd6 arg s
  | .acmd41 arg => Sys2Proof.Machine.execAcmd41 arg s
  | .acmd51 arg => Sys2Proof.Machine.execAcmd51 arg s

end Sys2Proof.Machine
end

