-- ==== Sys2Proof/Machine/Handler.lean ====
section
/-! DEFINITION. The Interrupt Completion Handler after its entry (60_exceptions.md R271 to R275). Its CMD12 is decoded and
run like any word, in Machine/Fetch.lean. -/

namespace Sys2Proof.Machine

/-- Move the handler to a phase. -/
def setPhase (p : IrqPhase) (s : State) : State := s.setIrq { s.irq with phase := p }

/-- `data_end_path` without the stop command (60_exceptions.md R272): the six register writes. -/
def dataEndWrites (s : State) : State :=
  let l := s.params.layout
  let s1 := writeReg .icr (dataFlags l) s
  let s2 := rmw .maskr (dataIrq l) 0 s1
  let s3 := rmw .cmdr (cmdTrans l) 0 s2
  let s4 := writeReg .dlenr 0 s3
  let s5 := writeReg .dctrl 0 s4
  writeReg .idmactrlr 0 s5

/-- `data_end_path` (60_exceptions.md R272): then the stop command for a multi-block transfer, else the release. -/
def dataEndPath (s : State) : State :=
  let t := dataEndWrites s
  setPhase (if t.xfer.multiBlock then .stop else .release) t

/-- `error_path` (60_exceptions.md R274): snapshot the status word, clear the flags, disable the sources, set the error.
Length, control, DMA control and CMDTRANS are left, and no CMD12 is sent (D37). -/
def errorPath (st : Word) (s : State) : State :=
  let s1 := s.setXfer { s.xfer with status := st }
  let s2 := rmw .maskr (dataIrq s.params.layout) 0 (writeReg .icr (dataFlags s.params.layout) s1)
  setPhase .release (s2.setXfer { s2.xfer with error := true })

/-- Dispatch (60_exceptions.md R271): a data error before data end; with neither nothing is written and the handler
returns (D23, D46). -/
def irqDispatch (s : State) : State :=
  let st := readValue .star s
  let t := readNext .star s
  if st &&& dataErrFlags s.params.layout != 0 then errorPath st t
  else if st.getLsbD s.params.layout.dataend then dataEndPath t
  else irqReturn t

/-- Take the stop command's outcome: any but Success sets the error flag, and completion is signalled all the same
(60_exceptions.md R273, D26). -/
def irqCollect (s : State) : State :=
  setPhase .release (if s.engine.reply.out = .success then s else s.setXfer { s.xfer with error := true })

/-- `release` (60_exceptions.md R275): multi_block and in_flight are cleared, then completed is set, and the handler
returns. -/
def irqRelease (s : State) : State :=
  let s1 := s.setXfer { s.xfer with multiBlock := false }
  let s2 := s1.setXfer { s1.xfer with inFlight := false }
  irqReturn (s2.setXfer { s2.xfer with completed := true })

end Sys2Proof.Machine
end

