-- ==== Sys2Proof/Machine/Operands.lean ====
section
/-! DEFINITION. Operand forms and arithmetic: the argument forms of 30_encoding.md R103, the response fields of R105 to
R107, the SCR correction of 41_datapath.md R164, the clock arithmetic of 43_sequencer.md R222, R227, R228. -/

namespace Sys2Proof.Machine

/-- The argument form "zero" (30_encoding.md R103). -/
def argZero : Word := 0
/-- The argument form "ifcond": VHS = 1 in bits 11:8, the pattern 0xAA in bits 7:0 (30_encoding.md R103). -/
def argIfCond : Word := 0x000001AA
/-- The argument form "opcond": bits 31, 30 and 20 (30_encoding.md R103). -/
def argOpCond : Word := 0xC0100000
/-- The argument form "blocklen" (30_encoding.md R103). -/
def argBlockLen : Word := 8
/-- The argument form "buswidth": the 4-bit bus (30_encoding.md R103). -/
def argBusWidth : Word := 2

/-- The card-state field of an R1 response, bits 12:9 (30_encoding.md R105). -/
def cardState (r : Word) : BitVec 4 := r.extractLsb' 9 4
/-- The Transfer encoding of the card state (10_state.md R68). -/
def transferState : BitVec 4 := 0x4
/-- Bit 31 of an R3 response: the negotiation loop ends when it is set (30_encoding.md R106). -/
def ocrReady (r : Word) : Bool := r.getLsbD 31
/-- Bit 30 of an R3 response, the high-capacity bit (30_encoding.md R106). -/
def ocrCcs (r : Word) : Bool := r.getLsbD 30
/-- The echoed command index, the field RESPCMD of RESPCMDR (10_state.md R55). -/
def echoIndex (l : Layout) (r : Word) : BitVec 6 := r.extractLsb' l.respcmd 6

/-- The four bytes of a word in reverse order (00_scope.md R8). -/
def bswap32 (w : Word) : Word :=
  w.extractLsb' 0 8 ++ w.extractLsb' 8 8 ++ w.extractLsb' 16 8 ++ w.extractLsb' 24 8
/-- The low half of a 64-bit value. -/
def loHalf (d : DWord) : Word := d.extractLsb' 0 32
/-- The high half of a 64-bit value. -/
def hiHalf (d : DWord) : Word := d.extractLsb' 32 32
/-- The eight bytes of a double word in reverse order (00_scope.md R8). -/
def bswap64 (d : DWord) : DWord := bswap32 (loHalf d) ++ bswap32 (hiHalf d)
/-- The SCR correction: the first FIFO word gives the high half, each half byte-reversed (41_datapath.md R164). -/
def scrCorrect (r0 r1 : Word) : DWord := bswap32 r0 ++ bswap32 r1
/-- The 4-bit-support test of the corrected SCR (30_encoding.md R107). -/
def wide4 (scr : DWord) : Bool := hiHalf scr &&& 0x00040000 != 0

/-- The initialisation divider (43_sequencer.md R227). -/
def initDivider (pclk : Nat) : Nat := pclk / 800000
/-- The divider of the target rate, rounded up (43_sequencer.md R222). -/
def speedDivider (pclk rate : Nat) : Nat := (pclk + 2 * rate - 1) / (2 * rate)
/-- The settle delay in microseconds (43_sequencer.md R228). -/
def settleUs (pclk initDiv : Nat) : Nat := 1 + (148000000 * initDiv + pclk - 1) / pclk
/-- The clock range check of BringUp (43_sequencer.md R210, D19). -/
def clockInRange (pclk rate : Nat) : Bool :=
  decide (800000 ≤ pclk) && decide (1 ≤ rate) && decide (initDivider pclk ≤ 1023) && decide (speedDivider pclk rate ≤ 1023)

/-- CLKCR.WIDBUS for a 1-bit bus (10_state.md R52). -/
def busOne : BitVec 2 := 0b00
/-- CLKCR.WIDBUS for a 4-bit bus (10_state.md R52). -/
def busFour : BitVec 2 := 0b01

/-- The CLKCR field value written by 43_sequencer.md R211 and R223: flow control, edge, bus width, power save, divider. -/
def clkcrValue (p : Params) (bus : BitVec 2) (div : BitVec 10) : Word :=
  fieldAt p.layout.hwfc p.hwfc ||| fieldAt p.layout.negedge p.negedge ||| fieldAt p.layout.widbus bus
    ||| fieldAt p.layout.pwrsav p.pwrsav ||| fieldAt p.layout.clkdiv div

/-- The exponent of a byte count that is 2^b for b from 0 to 14 (41_datapath.md R160). -/
def blockExponent (n : Nat) : Option Nat := (List.range 15).find? (fun b => 2 ^ b == n)

/-- The DCTRL value of a short read of 2^b bytes: block mode, card to host, enabled (41_datapath.md R160). -/
def dctrlValue (l : Layout) (b : Nat) : Word :=
  fieldAt l.dblocksize (BitVec.ofNat 4 b) ||| fieldAt l.dtmode 0b00#2 ||| bitsAt [l.dtdir, l.dten]

end Sys2Proof.Machine
end

