-- ==== Sys2Proof/Machine/DataPath.lean ====
section
/-! DEFINITION. The Data Path Controller (41_datapath.md R160 to R165). -/

namespace Sys2Proof.Machine

/-- `begin_short_read` (41_datapath.md R160): refused for a byte count that is not 2^b with b from 0 to 14, and while a
transfer is in flight (60_exceptions.md R278), which is looked at first (log 32). -/
def beginShortRead (bytes : Nat) (s : State) : StepResult :=
  if engineBusy s then .refused .concurrent
  else
    match blockExponent bytes with
    | none => .refused .badByteCount
    | some b =>
      .next (writeReg .dctrl (dctrlValue s.params.layout b) (writeReg .dlenr (BitVec.ofNat 32 bytes) (writeReg .dtimer s.params.dtimer s)))

/-- Read one pair of FIFO words (41_datapath.md R161, 20_memory.md R72: two accesses). -/
def pullPair (s : State) : List Word × State :=
  let s1 := readNext .fifor s
  ([readValue .fifor s, readValue .fifor s1], readNext .fifor s1)

/-- A drain begins: no word read yet, no poll made (10_state.md R41, 41_datapath.md R161). -/
def startDrain (s : State) : State := s.setLoop ⟨none, some 0⟩

/-- Note the word count `n` of a running drain (10_state.md R41). -/
def countWords (ws : List Word) (s : State) : State := s.setLoop { s.loop with n := some ws.length }

/-- The poll loop of `drain` (41_datapath.md R161): at most `m` status reads, the words read so far in `ws`. Answers the
terminal status word, if one ended it, and the words. -/
def drainLoop (e : Nat) : Nat → List Word → State → Option Word × List Word × State
  | 0, ws, s => (none, ws, s)
  | m + 1, ws, s =>
    let st := readValue .star s
    let t := pollNext s
    if st &&& dataTermFlags s.params.layout != 0 then (some st, ws, t)
    else if !st.getLsbD s.params.layout.rxfifoe && decide (ws.length < e) then
      let r := pullPair t
      let u := countWords (ws ++ r.1) r.2
      if e ≤ (ws ++ r.1).length then (none, ws ++ r.1, u) else drainLoop e m (ws ++ r.1) u
    else if e ≤ ws.length then (none, ws, t)
    else drainLoop e m ws t

/-- `drain` (41_datapath.md R161, R162): the words read and the outcome; every exit clears the data flags. -/
def drain (e m : Nat) (s : State) : List Word × DrainOutcome × State :=
  let r := drainLoop e m [] (startDrain s)
  (r.2.1, drainOutcome s.params r.1 r.2.1.length e, leaveLoop (dataFlags s.params.layout) r.2.2)

/-- Keep the two SCR words and the corrected SCR (41_datapath.md R163 to R165). -/
def storeScr (w0 w1 : Word) (s : State) : State :=
  s.setSession { s.session with scrRaw := some ⟨w0, w1⟩, scr := some (scrCorrect w0 w1) }

end Sys2Proof.Machine
end

