-- ==== Sys2Proof/Machine/Sequencer.lean ====
section
/-! DEFINITION. The Card Initialization Sequencer (43_sequencer.md R210 to R226): BringUp's entry and one action per
sequencer point. An action that issues a command word puts its encoding into the command slot; the next step decodes and
runs it, and the action of the `…Reply` point that follows takes its outcome. -/

namespace Sys2Proof.Machine

/-- Put an instruction's words into the command slot and move to the point that takes its outcome. -/
def putWord (i : Instr) (next : SeqPoint) (s : State) : StepResult :=
  .next ((s.setEngine { s.engine with slot := some (encode s.params.layout i) }).setPc next)

/-- Go on after a command, or fail with the error of its outcome ("Any step's failure return propagates immediately",
43_sequencer.md R226; `toErr`, 00_scope.md R11). -/
def afterReply (s : State) (k : StepResult) : StepResult :=
  match toErr s.engine.reply.out with
  | none => k
  | some e => .next (fail e s)

/-- Put a word whose argument is the RCA (30_encoding.md R103, form "rca"). -/
def putWithRca (mk : Word → Instr) (next : SeqPoint) (s : State) : StepResult :=
  withSession .rca s.session.rca fun rca => putWord (mk rca) next s

/-- The pin service, called once for each bus line (43_sequencer.md R211, 60_exceptions.md R290). -/
def configurePins (s : State) : State :=
  [PinLine.clk, .cmd, .d0, .d1, .d2, .d3].foldl (fun t l => t.emit (.pin l t.params.pinAf)) s

/-- PowerUp (43_sequencer.md R211): pins, clock, power, settle delay. -/
def stepPowerUp (s : State) : StepResult :=
  let s1 := configurePins s
  let s2 := rmw .clkcr (clkcrFields s.params.layout) (clkcrValue s.params busOne s.seq.initDiv) s1
  let s3 := rmw .power (pwrCtrl s.params.layout) (pwrCtrl s.params.layout) s2
  .next ((s3.emit (.delay (settleUs s.params.pclk s.seq.initDiv.toNat))).setPc .idleIssue)

/-- Idle, the go-idle word (43_sequencer.md R212). -/
def stepIdleIssue (s : State) : StepResult := putWord (.cmd0 argZero) .idleReply s

/-- Idle: any outcome but Success is Timeout (43_sequencer.md R212). -/
def stepIdleReply (s : State) : StepResult :=
  if s.engine.reply.out = .success then .next (s.setPc (.probeIssue 0)) else .next (fail .timeout s)

/-- VersionProbe, one trial (43_sequencer.md R213). -/
def stepProbeIssue (trial : Nat) (s : State) : StepResult := putWord (.cmd8 argIfCond) (.probeReply trial) s

/-- `VERSION_TRIALS` (00_scope.md R7). -/
def versionTrials : Nat := 10

/-- VersionProbe: Success is version 2; a hardware timeout or a CRC failure is definitive; an exhausted trial is retried,
ten trials in all (43_sequencer.md R213). -/
def stepProbeReply (trial : Nat) (s : State) : StepResult :=
  match s.engine.reply.out with
  | .success => .next ((s.setSession { s.session with version2 := some true }).setPc (.voltPrefix 0))
  | .crcFailure => .next (fail .cardUnsupported (s.setSession { s.session with version2 := some false }))
  | .hwTimeout => .next (fail .cardUnsupported (s.setSession { s.session with version2 := some false }))
  | .budgetExhausted =>
    if trial + 1 < versionTrials then .next (s.setPc (.probeIssue (trial + 1))) else .next (fail .timeout s)

/-- VoltageNegotiation, the prefix word of a round (43_sequencer.md R214). -/
def stepVoltPrefix (round : Nat) (s : State) : StepResult := putWord (.cmd55 argZero) (.voltPrefixReply round) s

/-- VoltageNegotiation: the echoed index must be 55 (43_sequencer.md R214, 40_engine.md R146, 90_conflicts.md C1). -/
def stepVoltPrefixReply (round : Nat) (s : State) : StepResult :=
  afterReply s <|
    let r := readValue .respcmdr s
    let t := readNext .respcmdr s
    if echoIndex s.params.layout r = 55 then .next (t.setPc (.voltCond round)) else .next (fail .cardUnsupported t)

/-- VoltageNegotiation, the operating-condition word of a round (43_sequencer.md R214). -/
def stepVoltCond (round : Nat) (s : State) : StepResult := putWord (.acmd41 argOpCond) (.voltCondReply round) s

/-- VoltageNegotiation: done once bit 31 is set; at most `P_VOLT_BUDGET` rounds (43_sequencer.md R214). -/
def stepVoltCondReply (round : Nat) (s : State) : StepResult :=
  afterReply s <|
    if ocrReady s.engine.reply.resp.w0 then .next (s.setPc .capacity)
    else if round + 1 < s.params.voltBudget then .next (s.setPc (.voltPrefix (round + 1)))
    else .next (fail .timeout s)

/-- CapacityCheck (43_sequencer.md R215). -/
def stepCapacity (s : State) : StepResult :=
  withSession .ocr s.session.ocr fun ocr =>
    if ocrCcs ocr then .next (fail .capacityUnsupported s) else .next (s.setPc .identIssue)

/-- Identification (43_sequencer.md R216); the CID is kept by the word itself (42_commands.md R182). -/
def stepIdentIssue (s : State) : StepResult := putWord (.cmd2 argZero) .identReply s
/-- Identification, the outcome (43_sequencer.md R216). -/
def stepIdentReply (s : State) : StepResult := afterReply s (.next (s.setPc .addrIssue))

/-- Addressing (43_sequencer.md R217); the RCA is kept by the word itself (42_commands.md R183). -/
def stepAddrIssue (s : State) : StepResult := putWord (.cmd3 argZero) .addrReply s
/-- Addressing, the outcome (43_sequencer.md R217). -/
def stepAddrReply (s : State) : StepResult := afterReply s (.next (s.setPc .csdIssue))

/-- CSDRetrieval (43_sequencer.md R218). -/
def stepCsdIssue (s : State) : StepResult := putWithRca .cmd9 .csdReply s
/-- CSDRetrieval, the outcome (43_sequencer.md R218). -/
def stepCsdReply (s : State) : StepResult := afterReply s (.next (s.setPc .selectIssue))

/-- Selection (43_sequencer.md R219). -/
def stepSelectIssue (s : State) : StepResult := putWithRca .cmd7 .selectReply s
/-- Selection, the outcome (43_sequencer.md R219). -/
def stepSelectReply (s : State) : StepResult := afterReply s (.next (s.setPc .configLen))

/-- ConfigurationRetrieval, the block length (43_sequencer.md R220). -/
def stepConfigLen (s : State) : StepResult := putWord (.cmd16 argBlockLen) .configLenReply s
/-- ConfigurationRetrieval, the block length's outcome (43_sequencer.md R220). -/
def stepConfigLenReply (s : State) : StepResult := afterReply s (.next (s.setPc .configPrefix))
/-- ConfigurationRetrieval, the prefix (43_sequencer.md R220). -/
def stepConfigPrefix (s : State) : StepResult := putWithRca .cmd55 .configPrefixReply s
/-- ConfigurationRetrieval, the prefix's outcome (43_sequencer.md R220). -/
def stepConfigPrefixReply (s : State) : StepResult := afterReply s (.next (s.setPc .configPrime))

/-- `SCR_BYTES` (00_scope.md R7). -/
def scrBytes : Nat := 8
/-- The words of the SCR drain (43_sequencer.md R220). -/
def scrWords : Nat := 2

/-- ConfigurationRetrieval, priming the data path (43_sequencer.md R220). -/
def stepConfigPrime (s : State) : StepResult := onNext (beginShortRead scrBytes s) fun t => t.setPc .configScr
/-- ConfigurationRetrieval, send-SCR (43_sequencer.md R220). -/
def stepConfigScr (s : State) : StepResult := putWord (.acmd51 argZero) .configScrReply s
/-- ConfigurationRetrieval, send-SCR's outcome: a failure leaves the data path enabled (43_sequencer.md R220). -/
def stepConfigScrReply (s : State) : StepResult := afterReply s (.next (s.setPc .configDrain))

/-- ConfigurationRetrieval, the drain and the SCR correction (43_sequencer.md R220, 41_datapath.md R161 to R165). -/
def stepConfigDrain (s : State) : StepResult :=
  if engineBusy s then .refused .concurrent
  else
    let r := drain scrWords s.params.drainBudget s
    match r.2.1.err, r.1 with
    | none, w0 :: w1 :: _ => .next ((storeScr w0 w1 r.2.2).setPc .widthPrefix)
    | none, _ => .next (fail .timeout r.2.2)
    | some e, _ => .next (fail e r.2.2)

/-- BusWidthNegotiation: the capability, then the prefix (43_sequencer.md R221). -/
def stepWidthPrefix (s : State) : StepResult :=
  withSession .scr s.session.scr fun scr =>
    if wide4 scr then putWithRca .cmd55 .widthPrefixReply s else .next (fail .busWidthUnsupported s)
/-- BusWidthNegotiation, the prefix's outcome (43_sequencer.md R221). -/
def stepWidthPrefixReply (s : State) : StepResult := afterReply s (.next (s.setPc .widthSet))
/-- BusWidthNegotiation, set-bus-width (43_sequencer.md R221). -/
def stepWidthSet (s : State) : StepResult := putWord (.acmd6 argBusWidth) .widthSetReply s
/-- BusWidthNegotiation, set-bus-width's outcome (43_sequencer.md R221). -/
def stepWidthSetReply (s : State) : StepResult := afterReply s (.next (s.setPc .speed))

/-- SpeedTransition: one read-modify-write of CLKCR (43_sequencer.md R223). -/
def stepSpeed (s : State) : StepResult :=
  .next ((rmw .clkcr (clkcrFields s.params.layout) (clkcrValue s.params busFour s.seq.speedDiv) s).setPc (.readyIssue 0))

/-- ReadyCheck, one query (43_sequencer.md R224). -/
def stepReadyIssue (query : Nat) (s : State) : StepResult := putWithRca .cmd13 (.readyReply query) s

/-- Ready: terminal success (43_sequencer.md R225). -/
def becomeReady (s : State) : State := (s.setSession { s.session with result := some .ready }).setPc .ready

/-- ReadyCheck: done once the card state is Transfer; at most `P_READY_BUDGET` queries (43_sequencer.md R224, R225). -/
def stepReadyReply (query : Nat) (s : State) : StepResult :=
  afterReply s <|
    if cardState s.engine.reply.resp.w0 = transferState then .next (becomeReady s)
    else if query + 1 < s.params.readyBudget then .next (s.setPc (.readyIssue (query + 1)))
    else .next (fail .timeout s)

/-- Whether a BringUp is running at a point (10_state.md R40: Off, Ready and Failed are not). -/
def SeqPoint.running : SeqPoint → Bool
  | .off => false
  | .ready => false
  | .failed _ => false
  | _ => true

/-- Whether SEQ is busy: a BringUp or a WaitTransfer runs, or a command word waits in the slot. -/
def seqBusy (s : State) : Bool := s.seq.pc.running || s.seq.wait.isSome || s.engine.slot.isSome

/-- BringUp's entry (43_sequencer.md R210). The session registers become unwritten, and the decoder's prefix bit is
cleared, since a new sequence of command words begins (log 12). -/
def bringUp (rate : Nat) (s : State) : StepResult :=
  if seqBusy s || s.xfer.inFlight then .refused .concurrent
  else if clockInRange s.params.pclk rate then
    .next ((((s.setSession Session.unwritten).setSeq { s.seq with
      initDiv := BitVec.ofNat 10 (initDivider s.params.pclk)
      speedDiv := BitVec.ofNat 10 (speedDivider s.params.pclk rate) }).setEngine
        { s.engine with appPending := false }).setPc .powerUp)
  else .refused .clockOutOfRange

/-- The sequencer's action at its point (43_sequencer.md R211 to R225). Where no BringUp runs SEQ does nothing, and time
passes (a preemption point). -/
def seqStep (s : State) : StepResult :=
  match s.seq.pc with
  | .off => .next (point s)
  | .powerUp => stepPowerUp s
  | .idleIssue => stepIdleIssue s
  | .idleReply => stepIdleReply s
  | .probeIssue t => stepProbeIssue t s
  | .probeReply t => stepProbeReply t s
  | .voltPrefix r => stepVoltPrefix r s
  | .voltPrefixReply r => stepVoltPrefixReply r s
  | .voltCond r => stepVoltCond r s
  | .voltCondReply r => stepVoltCondReply r s
  | .capacity => stepCapacity s
  | .identIssue => stepIdentIssue s
  | .identReply => stepIdentReply s
  | .addrIssue => stepAddrIssue s
  | .addrReply => stepAddrReply s
  | .csdIssue => stepCsdIssue s
  | .csdReply => stepCsdReply s
  | .selectIssue => stepSelectIssue s
  | .selectReply => stepSelectReply s
  | .configLen => stepConfigLen s
  | .configLenReply => stepConfigLenReply s
  | .configPrefix => stepConfigPrefix s
  | .configPrefixReply => stepConfigPrefixReply s
  | .configPrime => stepConfigPrime s
  | .configScr => stepConfigScr s
  | .configScrReply => stepConfigScrReply s
  | .configDrain => stepConfigDrain s
  | .widthPrefix => stepWidthPrefix s
  | .widthPrefixReply => stepWidthPrefixReply s
  | .widthSet => stepWidthSet s
  | .widthSetReply => stepWidthSetReply s
  | .speed => stepSpeed s
  | .readyIssue q => stepReadyIssue q s
  | .readyReply q => stepReadyReply q s
  | .ready => .next (point s)
  | .failed _ => .next (point s)

end Sys2Proof.Machine
end

