-- ==== Sys2Proof/Machine/HostOps.lean ====
section
/-! DEFINITION. HOST's calls (00_scope.md R6): BringUp, StartTransfer and WaitTransfer (60_exceptions.md R276, R277), direct
register accesses (00_scope.md R9, 20_memory.md R71), reads of the transfer record (20_memory.md R80), and the routing of the
interrupt (70_reset_and_hazards.md R305). -/

namespace Sys2Proof.Machine

/-- Whether StartTransfer is admitted: the card is ready, no transfer is in flight (60_exceptions.md R276), and SEQ has read
`completed = true` of the previous one (R278, 70_reset_and_hazards.md R316, 92_eei_decisions.md D45; log 29). -/
def startAdmitted (s : State) : Bool := s.seq.pc == .ready && !s.xfer.inFlight && s.seq.acquired

/-- `StartTransfer(multi)` (60_exceptions.md R276): refused unless it is admitted; else five writes of the record, one after the
other. -/
def startTransfer (multi : Bool) (s : State) : StepResult :=
  if startAdmitted s then
    andThen (recordWrite (fun x => { x with completed := false })
      (s.setSeq { s.seq with acquired := false, startMulti := multi })) fun s1 =>
    andThen (recordWrite (fun x => { x with error := false }) s1) fun s2 =>
    andThen (recordWrite (fun x => { x with status := 0 }) s2) fun s3 =>
    andThen (recordWrite (fun x => { x with multiBlock := multi }) s3) fun s4 =>
    recordWrite (fun x => { x with inFlight := true }) s4
  else .refused .notReady

/-- `WaitTransfer()` begins (60_exceptions.md R277): `P_WAIT_BUDGET` polls are left, this one of them counted apart. -/
def startWait (s : State) : StepResult :=
  .next (s.setSeq { s.seq with wait := some s.params.waitMore })

/-- What WaitTransfer reports of a completed transfer (60_exceptions.md R277). -/
def waitOutcome (x : Transfer) : Outcome := if x.error then .error .transferError else .ready

/-- A Bool field as a word. -/
def boolWord (b : Bool) : Word := if b then 1 else 0

/-- The field's value in the record. -/
def recordNow (f : RecField) (s : State) : Word :=
  match f with
  | .completed => boolWord s.xfer.completed
  | .error => boolWord s.xfer.error
  | .multiBlock => boolWord s.xfer.multiBlock
  | .status => s.xfer.status

/-- SEQ reads a field of the record, and a preemption point follows. -/
def recordSeen (f : RecField) (s : State) : State := point (s.emit (.record f (recordNow f s)))

/-- One poll of `completed` with `left` more to come (60_exceptions.md R277): the acquire load of 20_memory.md R80, and after
it, where it reads true, the loads of `error` and `status`. An exhausted wait leaves `in_flight` as it is (D45). What the wait
returns is `waitRet`; Timeout is not written to `s.result` or `s.diag_status`, though the table of 60_exceptions.md R262 names
the waiter in that row (log 30). -/
def waitPoll (left : Nat) (s : State) : StepResult :=
  let t := recordSeen .completed s
  if s.xfer.completed then
    let u := recordSeen .status (recordSeen .error t)
    .next (u.setSeq { u.seq with
      wait := none, acquired := true, waitRet := some (.done (waitOutcome s.xfer) s.xfer.status) })
  else
    match left with
    | 0 => .next (t.setSeq { t.seq with wait := none, waitRet := some .timeout })
    | n + 1 => .next (t.setSeq { t.seq with wait := some n })

/-- The value StartTransfer wrote to the field (60_exceptions.md R276). -/
def recordStart (f : RecField) (s : State) : Word :=
  match f with
  | .completed => 0
  | .error => 0
  | .multiBlock => boolWord s.seq.startMulti
  | .status => 0

/-- A value IRQ writes to the field: what it has written once the transfer is completed, before that what it may still
write (20_memory.md R80 item 3; log 17). To `status` it writes a word with a data-error flag or nothing (60_exceptions.md R271,
R274). -/
def recordIrq (f : RecField) (s : State) : Word :=
  if s.xfer.completed then recordNow f s
  else
    match f with
    | .completed => 1
    | .error => 1
    | .multiBlock => 0
    | .status =>
      let w := Config.raceStatus s.env.tick
      if w &&& dataErrFlags s.params.layout != 0 then w else recordStart .status s

/-- What SEQ reads from a field of the transfer record (20_memory.md R80). `completed` is read as it is; a read of another
field before SEQ has read `completed = true` for the current transfer is a race: a free choice between the value
StartTransfer wrote and a value IRQ writes (log 17). -/
def recordRead (f : RecField) (s : State) : Word :=
  if f = .completed ∨ s.seq.acquired = true then recordNow f s
  else if Config.raceTakesStart s.env.tick then recordStart f s
  else recordIrq f s

/-- SEQ reads one field of the record (20_memory.md R80): the value is recorded; reading `completed = true` acquires. -/
def readRecord (f : RecField) (s : State) : StepResult :=
  let t := (s.emit (.record f (recordRead f s))).setEnv { s.env with tick := s.env.tick + 1 }
  .next (point (t.setSeq { t.seq with acquired := s.seq.acquired || (decide (f = .completed) && s.xfer.completed) }))

/-- `MemRead(addr, width)` (00_scope.md R9, 20_memory.md R71): the value read is recorded. -/
def memRead (addr : Word) (width : Nat) (s : State) : StepResult :=
  match regAt s.params addr width with
  | some r => .next (readNext r s)
  | none => .refused .badAccess

/-- `MemWrite(addr, width, v)` (00_scope.md R9, 20_memory.md R71). -/
def memWrite (addr : Word) (width : Nat) (v : Word) (s : State) : StepResult :=
  match regAt s.params addr width with
  | some r => .next (writeReg r v s)
  | none => .refused .badAccess

/-- The platform routes and enables the interrupt line (70_reset_and_hazards.md R305 item 5; log 9). -/
def routeIrq (s : State) : StepResult := .next (point (s.setIrq { s.irq with routed := true }))

/-- One call of HOST. -/
def doCall (op : HostOp) (s : State) : StepResult :=
  match op with
  | .bringUp rate => bringUp rate s
  | .startTransfer multi => startTransfer multi s
  | .waitTransfer => startWait s
  | .shortRead bytes => beginShortRead bytes s
  | .memRead addr width => memRead addr width s
  | .memWrite addr width v => memWrite addr width v s
  | .readRecord f => readRecord f s
  | .routeIrq => routeIrq s

/-- A call from another execution context while SEQ is busy (60_exceptions.md R278; log 13): accesses of the register
window and the routing of the interrupt are HOST's own and take effect; a BringUp is refused by its own check (43_sequencer.md
R210), a StartTransfer by its own where it is not admitted (60_exceptions.md R276); every other use is concurrent. -/
def otherContext (op : HostOp) (s : State) : StepResult :=
  match op with
  | .bringUp rate => bringUp rate s
  | .startTransfer multi =>
    if startAdmitted s then .refused .concurrent else startTransfer multi s
  | .waitTransfer => .refused .concurrent
  | .shortRead _ => .refused .concurrent
  | .memRead addr width => memRead addr width s
  | .memWrite addr width v => memWrite addr width v s
  | .readRecord _ => .refused .concurrent
  | .routeIrq => routeIrq s

/-- SEQ's own action, with no call to take: a poll of a running wait, else the sequencer's action. -/
def seqOwn (s : State) : StepResult :=
  match s.seq.wait with
  | some left => waitPoll left s
  | none => seqStep s

/-- SEQ with no command word waiting. A serialised call is taken once SEQ is free, a call from another context at once. -/
def seqOrCall (s : State) : StepResult :=
  match s.calls with
  | [] => seqOwn s
  | c :: rest =>
    if seqBusy s then (if c.serialised then seqOwn s else otherContext c.op (s.setCalls rest))
    else doCall c.op (s.setCalls rest)

end Sys2Proof.Machine
end

