-- ==== Sys2Proof/Machine/Fetch.lean ====
section
/-! DEFINITION. Running a command word: the decoder (30_encoding.md R109, R111), then the word's meaning; the actions of the
two agents SEQ and IRQ; and how a word is placed where the next step runs it (log 10). -/

namespace Sys2Proof.Machine

/-- The state in which a decoded word runs: the slot is empty, and the prefix bit is set by CMD55 and cleared by every
other word (30_encoding.md R109). -/
def fetched (i : Instr) (s : State) : State :=
  s.setEngine { s.engine with slot := none, appPending := i.isPrefix }

/-- Decode a command word under the prefix bit and run it; a word that is no instruction of the block is refused
(30_encoding.md R110). -/
def runWord (w : CmdWord) (s : State) : StepResult :=
  match decode s.params.layout s.engine.appPending w with
  | .instr i => exec i (fetched i s)
  | .reject why => .refused (.notAnInstruction why)

/-- The handler's CMD12 (60_exceptions.md R273): its own word, not one of SEQ's sequence, so it is decoded without a
prefix, and SEQ's slot is left alone (log 12). -/
def irqStop (s : State) : StepResult :=
  match decode s.params.layout false (encode s.params.layout (.cmd12 0)) with
  | .instr i => onNext (exec i (s.setEngine { s.engine with appPending := i.isPrefix })) (setPhase .collect)
  | .reject why => .refused (.notAnInstruction why)

/-- IRQ's action (60_exceptions.md R271 to R275). -/
def irqAction (s : State) : StepResult :=
  match s.irq.phase with
  | .idle => .next s
  | .dispatch => .next (irqDispatch s)
  | .stop => irqStop s
  | .collect => .next (irqCollect s)
  | .release => .next (irqRelease s)

/-- SEQ's action: the command word in the slot, if there is one, else its own action or a call. -/
def seqAction (s : State) : StepResult :=
  match s.engine.slot with
  | some w => runWord w s
  | none => seqOrCall s

/-- A state whose next step runs the given command word: it is in the slot, the prefix bit is the one given, and no
handler runs or is requested (log 10). -/
def placeWord (p : Bool) (w : CmdWord) (s : State) : State :=
  (s.setEngine { s.engine with slot := some w, appPending := p }).setIrq { s.irq with latched := false, phase := .idle }

end Sys2Proof.Machine
end

