-- ==== Sys2Proof/Machine/Step.lean ====
section
/-! DEFINITION. One step of the machine (00_scope.md R6, R12): IRQ before SEQ (60_exceptions.md R265). -/

namespace Sys2Proof.Machine

/-- One step. A running handler is never preempted by SEQ (60_exceptions.md R270, R279); a raised line enters it
(R264, R270); else SEQ acts. -/
def step (s : State) : Host.Outcome State Fault Refusal :=
  match s.irq.phase with
  | .idle => if s.irq.latched then irqEnter s else seqCommit s (seqAction s)
  | .dispatch => irqAction s
  | .stop => irqAction s
  | .collect => irqAction s
  | .release => irqAction s

/-- The state whose next step runs the command word of the opcode table that `w` stands for (log 10, log 11). -/
def State.withFetchWord (s : State) (nbits w : Nat) : State :=
  placeWord (tablePrefix nbits w) (tableWord nbits w) s

end Sys2Proof.Machine
end

