-- ==== Sys2Proof/Safety.lean ====
section
/-! DEFINITION. What counts as a safe run, in the terms the statements use: the invariants of the machine, the transition
table, and how polls and accesses are counted. -/

namespace Sys2Proof.Machine

/-- Every reserved bit of every register that a write sets is 0 (10_state.md R64, 20_memory.md R74). -/
def Regs.reservedClear (l : Layout) (g : Regs) : Bool :=
  Reg.all.all fun r => r.port.isSome || g.get r &&& ~~~(l.rw.get r) == 0

/-- The discipline of the transfer record: a transfer in flight is not completed (60_exceptions.md R275, R276), a handler
that runs has its transfer in flight (R270), a transfer is in flight only when the card is ready (10_state.md R42, R276), and
a `completed` that SEQ has yet to observe belongs to a transfer that is in flight or completed (R278, 70_reset_and_hazards.md R316). -/
def transferInv (s : State) : Bool :=
  (!s.xfer.inFlight || !s.xfer.completed)
    && (s.irq.phase == .idle || s.xfer.inFlight)
    && (!s.xfer.inFlight || s.seq.pc == .ready)
    && (!s.xfer.inFlight || !s.seq.acquired)
    && (s.seq.acquired || s.xfer.inFlight || s.xfer.completed)

/-- The instruction whose outcome a point takes, where it can be named: the words with the RCA need the RCA
(43_sequencer.md R212 to R224). -/
def SeqPoint.awaited (p : SeqPoint) (rca : Option Word) : Option Instr :=
  match p with
  | .idleReply => some (.cmd0 argZero)
  | .probeReply _ => some (.cmd8 argIfCond)
  | .voltPrefixReply _ => some (.cmd55 argZero)
  | .voltCondReply _ => some (.acmd41 argOpCond)
  | .identReply => some (.cmd2 argZero)
  | .addrReply => some (.cmd3 argZero)
  | .csdReply => rca.map .cmd9
  | .selectReply => rca.map .cmd7
  | .configLenReply => some (.cmd16 argBlockLen)
  | .configPrefixReply => rca.map .cmd55
  | .configScrReply => some (.acmd51 argZero)
  | .widthPrefixReply => rca.map .cmd55
  | .widthSetReply => some (.acmd6 argBusWidth)
  | .readyReply _ => rca.map .cmd13
  | .off | .powerUp | .idleIssue | .probeIssue _ | .voltPrefix _ | .voltCond _ | .capacity | .identIssue | .addrIssue
  | .csdIssue | .selectIssue | .configLen | .configPrefix | .configPrime | .configScr | .configDrain | .widthPrefix
  | .widthSet | .speed | .readyIssue _ | .ready | .failed _ => none

/-- A word waits in the slot only at the point that takes its outcome, and it is that point's word. -/
def slotOk (s : State) : Bool :=
  match s.engine.slot with
  | none => true
  | some w => (s.seq.pc.awaited s.session.rca).map (encode s.params.layout) == some w

/-- The points whose next word is an application command, so that CMD55 is the last word before them
(30_encoding.md R109). -/
def SeqPoint.wantsPrefix : SeqPoint → Bool
  | .voltCond _ => true
  | .configPrime => true
  | .configScr => true
  | .widthSet => true
  | _ => false

/-- What the decoder's prefix bit is at every point of a BringUp: that of the waiting word, else that of the word whose
outcome is awaited, else that of the word to come (30_encoding.md R109). -/
def prefixOk (s : State) : Bool :=
  if s.seq.pc.running then
    match s.seq.pc.awaited s.session.rca with
    | some i => s.engine.appPending == (if s.engine.slot.isSome then i.row.app else i.isPrefix)
    | none => s.engine.appPending == s.seq.pc.wantsPrefix
  else true

/-- The states of a BringUp in order (10_state.md R40): how far a point is. -/
def SeqState.rank : SeqState → Nat
  | .off => 0
  | .failed _ => 0
  | .powerUp => 1
  | .idle => 2
  | .versionProbe => 3
  | .voltageNegotiation => 4
  | .capacityCheck => 5
  | .identification => 6
  | .addressing => 7
  | .csdRetrieval => 8
  | .selection => 9
  | .configurationRetrieval => 10
  | .busWidthNegotiation => 11
  | .speedTransition => 12
  | .readyCheck => 13
  | .ready => 14

/-- The session registers that are written by then: the version flag after the probe (43_sequencer.md R213), the OCR after
the negotiation, with its high-capacity bit clear after the capacity check (R214, R215), the RCA after Addressing and not
before its word has run (R217), the SCR after
ConfigurationRetrieval (R220), with 4-bit support after the capability test (R221). A command that has succeeded and whose outcome is not yet
taken counts as done. -/
def sessionOk (s : State) : Bool :=
  let rank := s.seq.pc.state.rank
  let done := s.engine.slot.isNone && s.engine.reply.out == .success
  (decide (rank < 4) || s.session.version2 == some true)
    && (decide (rank < 5) || s.session.ocr.isSome)
    && (match s.seq.pc with
        | .voltCondReply _ => !done || s.session.ocr.isSome
        | _ => true)
    && (decide (rank < 6) || (match s.session.ocr with | some o => !ocrCcs o | none => false))
    && (decide (rank < 8) || s.session.rca.isSome)
    && (decide (s.seq.pc ≠ .addrReply) || !done || s.session.rca.isSome)
    && (!(s.seq.pc.running && decide (rank < 7) || decide (s.seq.pc = .addrIssue)
          || decide (s.seq.pc = .addrReply) && s.engine.slot.isSome) || s.session.rca.isNone)
    && (decide (rank < 11) || s.session.scr.isSome)
    && (decide (rank < 11) || decide (s.seq.pc = .widthPrefix)
        || (match s.session.scr with | some d => wide4 d | none => false))

/-- The result of a finished BringUp is the one its final state names (43_sequencer.md R225, R226). -/
def resultOk (s : State) : Bool :=
  match s.seq.pc with
  | .ready => s.session.result == some .ready
  | .failed e => s.session.result == some (.error e)
  | _ => true

/-- The loop counters of the program counter are in the ranges of 10_state.md R41: `trial` from 0 to 9, `round` and `query`
below their budgets. -/
def countersOk (s : State) : Bool :=
  match s.seq.pc with
  | .probeIssue trial => decide (trial < 10)
  | .probeReply trial => decide (trial < 10)
  | .voltPrefix round => decide (round < s.params.voltBudget)
  | .voltPrefixReply round => decide (round < s.params.voltBudget)
  | .voltCond round => decide (round < s.params.voltBudget)
  | .voltCondReply round => decide (round < s.params.voltBudget)
  | .readyIssue query => decide (query < s.params.readyBudget)
  | .readyReply query => decide (query < s.params.readyBudget)
  | .off | .powerUp | .idleIssue | .idleReply | .capacity | .identIssue | .identReply | .addrIssue | .addrReply | .csdIssue
  | .csdReply | .selectIssue | .selectReply | .configLen | .configLenReply | .configPrefix | .configPrefixReply | .configPrime
  | .configScr | .configScrReply | .configDrain | .widthPrefix | .widthPrefixReply | .widthSet | .widthSetReply | .speed
  | .ready | .failed _ => true

/-- The layout is the default one, in whose positions the rules of spec/ are written (92_eei_decisions.md D1). -/
def standard (s : State) : Bool := s.params.layout == standardLayout

/-- The invariant of a safe run (43_sequencer.md R231, 30_encoding.md R109, 60_exceptions.md R278, 10_state.md R41). -/
def safeInv (s : State) : Bool :=
  standard s && transferInv s && slotOk s && prefixOk s && sessionOk s && resultOk s && countersOk s
    && s.loop == LoopCount.idle

/-- The transition table of BringUp (43_sequencer.md R230): whether `pc` may move from one state to another. BringUp itself
moves from Off, Ready and Failed to PowerUp (70_reset_and_hazards.md R301). -/
def SeqState.mayMove : SeqState → SeqState → Bool
  | .off, .powerUp => true
  | .ready, .powerUp => true
  | .failed _, .powerUp => true
  | .powerUp, .idle => true
  | .idle, .versionProbe => true
  | .idle, .failed .timeout => true
  | .versionProbe, .voltageNegotiation => true
  | .versionProbe, .failed .timeout => true
  | .versionProbe, .failed .cardUnsupported => true
  | .voltageNegotiation, .capacityCheck => true
  | .voltageNegotiation, .failed .timeout => true
  | .voltageNegotiation, .failed .crcFailure => true
  | .voltageNegotiation, .failed .cardUnsupported => true
  | .capacityCheck, .identification => true
  | .capacityCheck, .failed .capacityUnsupported => true
  | .identification, .addressing => true
  | .identification, .failed .timeout => true
  | .identification, .failed .crcFailure => true
  | .addressing, .csdRetrieval => true
  | .addressing, .failed .timeout => true
  | .addressing, .failed .crcFailure => true
  | .csdRetrieval, .selection => true
  | .csdRetrieval, .failed .timeout => true
  | .csdRetrieval, .failed .crcFailure => true
  | .selection, .configurationRetrieval => true
  | .selection, .failed .timeout => true
  | .selection, .failed .crcFailure => true
  | .configurationRetrieval, .busWidthNegotiation => true
  | .configurationRetrieval, .failed .timeout => true
  | .configurationRetrieval, .failed .crcFailure => true
  | .busWidthNegotiation, .speedTransition => true
  | .busWidthNegotiation, .failed .busWidthUnsupported => true
  | .busWidthNegotiation, .failed .timeout => true
  | .busWidthNegotiation, .failed .crcFailure => true
  | .speedTransition, .readyCheck => true
  | .readyCheck, .ready => true
  | .readyCheck, .failed .timeout => true
  | .readyCheck, .failed .crcFailure => true
  | _, _ => false

/-- Nothing but the sequencer can act: no handler runs or can be entered, no word, call or wait is pending. -/
def quiet (s : State) : Bool :=
  s.irq.phase == .idle && !s.irq.latched && !canInterrupt s && s.engine.slot.isNone && s.calls.isEmpty && s.seq.wait.isNone

/-- The state after `k` polls of the status register (40_engine.md R142, R143). -/
def pollAfter : Nat → State → State
  | 0, s => s
  | k + 1, s => pollAfter k (pollNext s)

/-- The status word that poll number `k`, counted from 0, reads. -/
def pollWord (k : Nat) (s : State) : Word := readValue .star (pollAfter k s)

/-- The state after `k` preemption points with no access between them (60_exceptions.md R265). -/
def pointAfter : Nat → State → State
  | 0, s => s
  | k + 1, s => pointAfter k (point s)

/-- The newest word a list of events says was written to a register. -/
def lastWritten (r : Reg) : List Event → Option Word
  | [] => none
  | e :: t =>
    match e with
    | .write q v => if q = r then some v else lastWritten r t
    | .read _ _ => lastWritten r t
    | .record _ _ => lastWritten r t
    | .pin _ _ => lastWritten r t
    | .delay _ => lastWritten r t

/-- How many STAR reads a trace records. -/
def starReads (tr : List Event) : Nat := tr.countP fun e => match e with | .read .star _ => true | _ => false

/-- How many ICR writes a trace records. -/
def icrWrites (tr : List Event) : Nat := tr.countP fun e => match e with | .write .icr _ => true | _ => false

/-- The budget a command word is awaited with: `P_STOP_BUDGET` for CMD12, `P_RESP_BUDGET` for the others
(42_commands.md R187 and the heading of that file). -/
def budgetOf (i : Instr) (p : Params) : Nat := if i.row.index = 12 then p.stopBudget else p.respBudget

/-- The state when the wait of a command word begins, after its `send` (40_engine.md R140). -/
def sent (i : Instr) (s : State) : State := send i.row i.arg s

/-- The outcome that `command` gives a word (40_engine.md R147). -/
def outcomeOf (i : Instr) (s : State) : EngOutcome :=
  acceptR3 s.params i.row.sdResp (awaitRow i.row (budgetOf i s.params) (sent i s)).1

/-- The state in which the response of a word is read, after its wait (40_engine.md R145). -/
def awaited (i : Instr) (s : State) : State := (awaitRow i.row (budgetOf i s.params) (sent i s)).2

/-- The four response words ENV answers when they are read one after the other (40_engine.md R145). -/
def responseWords (s : State) : Words4 :=
  let s1 := readNext .resp1 s
  let s2 := readNext .resp2 s1
  let s3 := readNext .resp3 s2
  ⟨readValue .resp1 s, readValue .resp2 s1, readValue .resp3 s2, readValue .resp4 s3⟩

/-- A word has been written to the controller: its argument is in ARGR (whose 32 bits are all RW in the default layout,
10_state.md R53), its fields are in CMDR, and CMDR's other bits are as before (40_engine.md R140, 30_encoding.md R102). -/
def wordWritten (i : Instr) (s t : State) : Prop :=
  t.regs.argr = i.arg &&& s.params.layout.rw.argr
    ∧ t.regs.cmdr = rmwWord s.regs.cmdr (cmdFields s.params.layout) (encode s.params.layout i).cmdr

/-- Two states differ at most in `diag_status`. -/
def sameButDiag (s t : State) : Prop := t = s.setSession { s.session with diagStatus := t.session.diagStatus }

end Sys2Proof.Machine
end

