-- ==== Sys2Proof/Certificates/Slice0/Obligations.lean ====
section
/-! DEFINITION. The statements for the provers. Each docstring names the rule of spec/ it formalises. The premise `standard s`
says that the machine's layout is the default one: a statement about register words names the layout, as 92_eei_decisions.md
D1 asks, and the rules of spec/ give their words in that layout (log 1). -/

open Sys2Proof Sys2Proof.Machine

/-! ### Encoding -/

/-- 30_encoding.md R108: each word of the opcode map, with its prefix bit, decodes to its row, with any argument. -/
def Obligations.OpcodeMapWordsDecode : Prop :=
  ∀ a : Word,
    decode standardLayout false ⟨a, 0x00001000⟩ = .instr (.cmd0 a)
    ∧ decode standardLayout false ⟨a, 0x00001101⟩ = .instr (.cmd1 a)
    ∧ decode standardLayout false ⟨a, 0x00001302⟩ = .instr (.cmd2 a)
    ∧ decode standardLayout false ⟨a, 0x00001103⟩ = .instr (.cmd3 a)
    ∧ decode standardLayout false ⟨a, 0x00001107⟩ = .instr (.cmd7 a)
    ∧ decode standardLayout false ⟨a, 0x00001108⟩ = .instr (.cmd8 a)
    ∧ decode standardLayout false ⟨a, 0x00001309⟩ = .instr (.cmd9 a)
    ∧ decode standardLayout false ⟨a, 0x0000110C⟩ = .instr (.cmd12 a)
    ∧ decode standardLayout false ⟨a, 0x0000110D⟩ = .instr (.cmd13 a)
    ∧ decode standardLayout false ⟨a, 0x00001110⟩ = .instr (.cmd16 a)
    ∧ decode standardLayout false ⟨a, 0x00001137⟩ = .instr (.cmd55 a)
    ∧ decode standardLayout true ⟨a, 0x00001106⟩ = .instr (.acmd6 a)
    ∧ decode standardLayout true ⟨a, 0x00001129⟩ = .instr (.acmd41 a)
    ∧ decode standardLayout true ⟨a, 0x00001133⟩ = .instr (.acmd51 a)

/-- 30_encoding.md R111, R102: decoding an encoded instruction under its row's prefix gives it back, for every instruction
and argument; and a word decodes to an instruction exactly when the prefix bit is the row's, the argument is the
instruction's, and the word's CMD_FIELDS bits are the row's word. -/
def Obligations.DecodeAndEncodeAgree : Prop :=
  (∀ i : Instr, decode standardLayout i.row.app (encode standardLayout i) = .instr i)
  ∧ ∀ (p : Bool) (w : CmdWord) (i : Instr),
      decode standardLayout p w = .instr i ↔
        (p = i.row.app ∧ w.arg = i.arg ∧ w.cmdr &&& 0x00011F3F = cmdw standardLayout i.row.index i.row.kind)

/-- 30_encoding.md R110, R111: a word with WAITRESP = 0b10, WAITINT, WAITPEND or CMDSUSPEND set, CPSMEN clear, a (prefix,
index) pair of no row, or a (prefix, CMD_FIELDS value) pair of no row (another kind than the row's among them) is refused by the
decoder, and a step of SEQ whose command word it is is refused by that name. -/
def Obligations.ReservedWordsAreRefused : Prop :=
  ∀ (p : Bool) (w : CmdWord),
    (w.cmdr.extractLsb' 8 2 = 0b10 ∨ w.cmdr.getLsbD 10 = true ∨ w.cmdr.getLsbD 11 = true ∨ w.cmdr.getLsbD 16 = true
      ∨ w.cmdr.getLsbD 12 = false
      ∨ (∀ i : Instr, ¬ (i.row.app = p ∧ i.row.index = w.cmdr.extractLsb' 0 6))
      ∨ (∀ i : Instr, ¬ (i.row.app = p ∧ w.cmdr &&& 0x00011F3F = cmdw standardLayout i.row.index i.row.kind))) →
    ∃ why, decode standardLayout p w = .reject why
      ∧ ∀ s : State, standard s = true → s.irq.phase = .idle → s.irq.latched = false → s.engine.slot = some w →
          s.engine.appPending = p → step s = .refused (.notAnInstruction why)

/-- A step runs the decoded instruction (42_commands.md, 60_exceptions.md R265, R270; the slot is the model's, log 10): where
no handler runs or is requested and a word in the slot decodes, the step is `exec` of its instruction on the state with the slot emptied and the
prefix bit as 30_encoding.md R109 says; around it the step adds one thing: where the line was found raised at one of the
word's preemption points outside a transfer, the handler was entered there, and the step is its fault. -/
def Obligations.StepRunsTheDecodedWord : Prop :=
  ∀ (s : State) (w : CmdWord) (i : Instr),
    s.irq.phase = .idle → s.irq.latched = false → s.engine.slot = some w →
    decode s.params.layout s.engine.appPending w = .instr i →
    (∀ t, exec i (s.setEngine { s.engine with slot := none, appPending := i.isPrefix }) = .next t →
      step s = if canInterrupt s = true ∧ t.irq.latched = true ∧ t.xfer.inFlight = false
        then .fault .handlerOutsideTransfer else .next t)
    ∧ (∀ e, exec i (s.setEngine { s.engine with slot := none, appPending := i.isPrefix }) = .refused e →
      step s = .refused e)

/-! ### The engine -/

/-- 30_encoding.md R102 and 40_engine.md R140: the CMDR word of a row has no bit outside CMD_FIELDS, and `send` leaves
`(old & ~CMD_FIELDS) | cmdw` in CMDR and the argument in ARGR. -/
def Obligations.SendLeavesTheWord : Prop :=
  ∀ (row : Row) (a : Word) (s : State), standard s = true →
    cmdw standardLayout row.index row.kind = 0x00001000 ||| (row.kind.code.setWidth 32 <<< 8) ||| row.index.setWidth 32
    ∧ cmdw standardLayout row.index row.kind &&& ~~~0x00011F3F = 0
    ∧ (send row a s).regs.cmdr = (s.regs.cmdr &&& ~~~0x00011F3F) ||| cmdw standardLayout row.index row.kind
    ∧ (send row a s).regs.argr = a

/-- 70_reset_and_hazards.md R312: `send` makes three accesses, in this order: it writes ARGR, reads CMDR, writes CMDR. -/
def Obligations.ArgumentIsWrittenBeforeCommand : Prop :=
  ∀ (row : Row) (a : Word) (s : State),
    (send row a s).trace =
      .write .cmdr (send row a s).regs.cmdr :: .read .cmdr (s.regs.cmdr &&& s.params.layout.rw.cmdr) :: .write .argr a :: s.trace

/-- 40_engine.md R142: `await_sent` with a budget of `n` reads answers Success at the first read that shows CMDSENT, and
BudgetExhausted after `n` reads if none does; it ends with the one write of ICR. -/
def Obligations.AwaitSentStopsAtCommandSent : Prop :=
  ∀ (n : Nat) (s : State), standard s = true →
    (∀ k < n, (∀ j < k, (pollWord j s).getLsbD 7 = false) → (pollWord k s).getLsbD 7 = true →
      awaitSent n s = (.success, leaveLoop 0x002000C5 (pollAfter (k + 1) s)))
    ∧ ((∀ j < n, (pollWord j s).getLsbD 7 = false) →
      awaitSent n s = (.budgetExhausted, leaveLoop 0x002000C5 (pollAfter n s)))

/-- 40_engine.md R143, R144: `await_response` ends at the first read with a terminal flag and CPSMACT clear, with
HwTimeout, CrcFailure or Success in that priority, and with BudgetExhausted after `n` reads if there is none; it ends with
the one write of ICR. -/
def Obligations.AwaitResponseStopsAtTerminal : Prop :=
  ∀ (n : Nat) (s : State), standard s = true →
    (∀ k < n, (∀ j < k, pollWord j s &&& 0x00200045 = 0 ∨ (pollWord j s).getLsbD 13 = true) →
      pollWord k s &&& 0x00200045 ≠ 0 → (pollWord k s).getLsbD 13 = false →
      awaitResponse n s =
        (if (pollWord k s).getLsbD 2 = true then .hwTimeout
          else if (pollWord k s).getLsbD 0 = true then .crcFailure else .success,
         leaveLoop 0x002000C5 (pollAfter (k + 1) s)))
    ∧ ((∀ j < n, pollWord j s &&& 0x00200045 = 0 ∨ (pollWord j s).getLsbD 13 = true) →
      awaitResponse n s = (.budgetExhausted, leaveLoop 0x002000C5 (pollAfter n s)))

/-- 40_engine.md R149: the last access of every await is its one ICR write of CMD_FLAGS, on every path, and it clears those
five flags of STAR together, unless ENV shows new ones at the preemption point after it; the loop counters are unwritten
from then on (10_state.md R41). -/
def Obligations.EveryAwaitEndsWithTheClear : Prop :=
  ∀ (n : Nat) (s : State), standard s = true →
    (∃ tr, (awaitSent n s).2.trace = .write .icr 0x002000C5 :: tr ∧ icrWrites tr = icrWrites s.trace)
    ∧ (∃ tr, (awaitResponse n s).2.trace = .write .icr 0x002000C5 :: tr ∧ icrWrites tr = icrWrites s.trace)
    ∧ (awaitSent n s).2.loop = LoopCount.idle ∧ (awaitResponse n s).2.loop = LoopCount.idle
    ∧ (canInterrupt s = false →
        (awaitSent n s).2.regs.star &&& 0x002000C5 = 0 ∧ (awaitResponse n s).2.regs.star &&& 0x002000C5 = 0)

/-- 92_eei_decisions.md D10, 40_engine.md R142, R143: an await with a budget of `n` makes at most `n` reads of STAR, and
exactly `n` when it answers BudgetExhausted. -/
def Obligations.AwaitsReadWithinBudget : Prop :=
  ∀ (n : Nat) (s : State),
    starReads (awaitSent n s).2.trace ≤ starReads s.trace + n
    ∧ starReads (awaitResponse n s).2.trace ≤ starReads s.trace + n
    ∧ ((awaitSent n s).1 = .budgetExhausted → starReads (awaitSent n s).2.trace = starReads s.trace + n)
    ∧ ((awaitResponse n s).1 = .budgetExhausted → starReads (awaitResponse n s).2.trace = starReads s.trace + n)

/-- 40_engine.md R145: a short response is the one read of RESP1; a long one the reads of RESP1, RESP2, RESP3, RESP4 in
that order; for kind None nothing is read. -/
def Obligations.ResponseReadsInOrder : Prop :=
  ∀ s : State,
    readResponse .none s = s
    ∧ (readResponse .short s).engine.reply.resp.w0 = readValue .resp1 s
    ∧ (readResponse .short s).trace = .read .resp1 (readValue .resp1 s) :: s.trace
    ∧ (readResponse .long s).engine.reply.resp = responseWords s
    ∧ (readResponse .long s).trace =
        .read .resp4 (responseWords s).w3 :: .read .resp3 (responseWords s).w2 :: .read .resp2 (responseWords s).w1
          :: .read .resp1 (responseWords s).w0 :: s.trace

/-! ### The command words -/

/-- 42_commands.md R180: CMD0 completes; it is sent and awaited with `await_sent(P_SENT_BUDGET)`, no response register is
read, and no session field is written but the engine's `last_status`. -/
def Obligations.CmdZeroCompletes : Prop :=
  ∀ (a : Word) (s : State), engineBusy s = false →
    ∃ t, exec (.cmd0 a) s = .next t
      ∧ wordWritten (.cmd0 a) s t
      ∧ t.engine.reply.out = (awaitSent s.params.sentBudget (sent (.cmd0 a) s)).1
      ∧ t.engine.reply.resp = s.engine.reply.resp
      ∧ t.regs.resp1 = s.regs.resp1
      ∧ t.session = { s.session with lastStatus := t.session.lastStatus }

/-- 42_commands.md R184, R188, R190: CMD7, CMD13 and CMD55 complete with any argument; the outcome is that of their wait,
the response word is read into the reply on Success, and no session field is written but `last_status`. -/
def Obligations.AddressedCommandsComplete : Prop :=
  ∀ (a : Word) (s : State) (i : Instr), engineBusy s = false → (i = .cmd7 a ∨ i = .cmd13 a ∨ i = .cmd55 a) →
    ∃ t, exec i s = .next t
      ∧ wordWritten i s t
      ∧ t.engine.reply.out = (awaitResponse s.params.respBudget (sent i s)).1
      ∧ (t.engine.reply.out = .success → t.engine.reply.resp.w0 = readValue .resp1 (awaited i s))
      ∧ t.session = { s.session with lastStatus := t.session.lastStatus }

/-- 42_commands.md R185, R189, R191, R193: CMD8, CMD16, ACMD6 and ACMD51 complete; the outcome is that of their wait, the
response word is read into the reply on Success, and no session field is written but `last_status`. -/
def Obligations.ConfigurationCommandsComplete : Prop :=
  ∀ (a : Word) (s : State) (i : Instr), engineBusy s = false →
    (i = .cmd8 a ∨ i = .cmd16 a ∨ i = .acmd6 a ∨ i = .acmd51 a) →
    ∃ t, exec i s = .next t
      ∧ wordWritten i s t
      ∧ t.engine.reply.out = (awaitResponse s.params.respBudget (sent i s)).1
      ∧ (t.engine.reply.out = .success → t.engine.reply.resp.w0 = readValue .resp1 (awaited i s))
      ∧ t.session = { s.session with lastStatus := t.session.lastStatus }

/-- 42_commands.md R187: CMD12 completes; it is awaited with `P_STOP_BUDGET`, its response is read on Success and
discarded, and the transfer record is not written by the word itself. -/
def Obligations.StopTransmissionCompletes : Prop :=
  ∀ (a : Word) (s : State), engineBusy s = false →
    ∃ t, exec (.cmd12 a) s = .next t
      ∧ wordWritten (.cmd12 a) s t
      ∧ t.engine.reply.out = (awaitResponse s.params.stopBudget (sent (.cmd12 a) s)).1
      ∧ (t.engine.reply.out = .success → t.engine.reply.resp.w0 = readValue .resp1 (awaited (.cmd12 a) s))
      ∧ t.session = { s.session with lastStatus := t.session.lastStatus }
      ∧ t.xfer = s.xfer

/-- 42_commands.md R182, R186: CMD2 and CMD9 complete; on Success the four response words, RESP1 first, become the CID or
the CSD, and on any other outcome the register keeps its value; no other session field is written but `last_status`. -/
def Obligations.LongResponsesAreStored : Prop :=
  ∀ (a : Word) (s : State), engineBusy s = false →
    (∃ t, exec (.cmd2 a) s = .next t
      ∧ wordWritten (.cmd2 a) s t
      ∧ t.engine.reply.out = (awaitResponse s.params.respBudget (sent (.cmd2 a) s)).1
      ∧ t.session = { s.session with
          lastStatus := t.session.lastStatus
          cid := if t.engine.reply.out = .success then some (responseWords (awaited (.cmd2 a) s)) else s.session.cid })
    ∧ (∃ t, exec (.cmd9 a) s = .next t
      ∧ wordWritten (.cmd9 a) s t
      ∧ t.engine.reply.out = (awaitResponse s.params.respBudget (sent (.cmd9 a) s)).1
      ∧ t.session = { s.session with
          lastStatus := t.session.lastStatus
          csd := if t.engine.reply.out = .success then some (responseWords (awaited (.cmd9 a) s)) else s.session.csd })

/-- 42_commands.md R183, 90_conflicts.md C7: CMD3 completes; on Success the whole response word becomes the RCA, and on any
other outcome it keeps its value; no other session field is written but `last_status`. -/
def Obligations.RelativeAddressIsStoredWhole : Prop :=
  ∀ (a : Word) (s : State), engineBusy s = false →
    ∃ t, exec (.cmd3 a) s = .next t
      ∧ wordWritten (.cmd3 a) s t
      ∧ t.engine.reply.out = (awaitResponse s.params.respBudget (sent (.cmd3 a) s)).1
      ∧ t.session = { s.session with
          lastStatus := t.session.lastStatus
          rca := if t.engine.reply.out = .success then some (readValue .resp1 (awaited (.cmd3 a) s)) else s.session.rca }

/-- 42_commands.md R181, R192, 40_engine.md R147: CMD1 and ACMD41 complete; a CrcFailure of the wait is a Success exactly
when `P_R3_CRC_ACCEPT`, every other outcome is the wait's; on Success the response word becomes the OCR, and on any other
outcome it keeps its value; no other session field is written but `last_status`. That CMD1 keeps its response as ACMD41
does is the model's reading (log 23). -/
def Obligations.OperatingConditionIsStored : Prop :=
  ∀ (a : Word) (s : State) (i : Instr), engineBusy s = false → (i = .cmd1 a ∨ i = .acmd41 a) →
    ∃ t, exec i s = .next t
      ∧ wordWritten i s t
      ∧ t.engine.reply.out =
          (if (awaitResponse s.params.respBudget (sent i s)).1 = .crcFailure ∧ s.params.r3CrcAccept = true then .success
           else (awaitResponse s.params.respBudget (sent i s)).1)
      ∧ t.session = { s.session with
          lastStatus := t.session.lastStatus
          ocr := if t.engine.reply.out = .success then some (readValue .resp1 (awaited i s)) else s.session.ocr }

/-- 42_commands.md R182, R183 (the rules' examples): where ENV's script begins with a status word that ends the wait with
Success and then the response, and no CTIMEOUT or CCRCFAIL is left in STAR, CMD3 stores that response word as RCA and CMD2
those four words as CID; `last_status` is the status word with the sticky flags STAR held (10_state.md R60; log 20). -/
def Obligations.AnsweredCommandsStoreTheAnswer : Prop :=
  ∀ (a st r0 r1 r2 r3 : Word) (rest : List (EnvPort × Word)) (s : State), standard s = true → engineBusy s = false →
    canInterrupt s = false → s.regs.star &&& 0x00000005 = 0 →
    st &&& 0x00200040 ≠ 0 → st.getLsbD 13 = false → st.getLsbD 2 = false → st.getLsbD 0 = false →
    (s.env.script = (.star, st) :: (.resp1, r0) :: rest →
      ∃ t, exec (.cmd3 a) s = .next t ∧ t.session.rca = some r0
        ∧ t.session.lastStatus = some (st ||| (s.regs.star &&& 0x1FE00FFF)))
    ∧ (s.env.script = (.star, st) :: (.resp1, r0) :: (.resp2, r1) :: (.resp3, r2) :: (.resp4, r3) :: rest →
      ∃ t, exec (.cmd2 a) s = .next t ∧ t.session.cid = some ⟨r0, r1, r2, r3⟩
        ∧ t.session.lastStatus = some (st ||| (s.regs.star &&& 0x1FE00FFF)))

/-- The frame of every command word (42_commands.md R180 to R193, 40_engine.md R140 to R147): a next state differs from the
old one at most in ARGR, CMDR, ICR and STAR, the response registers the word reads, the reply, `last_status`, the session
register its rule names, ENV, the trace and the latched line; the loop counters are unwritten at its end (10_state.md R41). -/
def Obligations.CommandFrame : Prop :=
  ∀ (i : Instr) (s t : State), exec i s = .next t →
    (∀ r : Reg, r ≠ .argr → r ≠ .cmdr → r ≠ .icr → r ≠ .star →
      (r = .resp1 → i.row.kind = .none) → ((r = .resp2 ∨ r = .resp3 ∨ r = .resp4) → i.row.kind ≠ .long) →
      t.regs.get r = s.regs.get r)
    ∧ (standard s = true → t.regs.icr = 0x002000C5) ∧ t.loop = LoopCount.idle
    ∧ t.params = s.params ∧ t.xfer = s.xfer ∧ t.seq = s.seq ∧ t.calls = s.calls
    ∧ t.irq.routed = s.irq.routed ∧ t.irq.phase = s.irq.phase
    ∧ t.engine.slot = s.engine.slot ∧ t.engine.appPending = s.engine.appPending
    ∧ t.session.scrRaw = s.session.scrRaw ∧ t.session.scr = s.session.scr ∧ t.session.version2 = s.session.version2
    ∧ t.session.result = s.session.result ∧ t.session.diagStatus = s.session.diagStatus
    ∧ ((∀ a, i ≠ .cmd2 a) → t.session.cid = s.session.cid)
    ∧ ((∀ a, i ≠ .cmd9 a) → t.session.csd = s.session.csd)
    ∧ ((∀ a, i ≠ .cmd3 a) → t.session.rca = s.session.rca)
    ∧ ((∀ a, i ≠ .cmd1 a) → (∀ a, i ≠ .acmd41 a) → t.session.ocr = s.session.ocr)

/-- 40_engine.md R140, R147, 60_exceptions.md R278: a command word raises no fault; SEQ's word is refused as Concurrent
exactly while a transfer is in flight; every other word gives a next state. -/
def Obligations.CommandsNeverFault : Prop :=
  ∀ (i : Instr) (s : State),
    (s.irq.phase = .idle ∧ s.xfer.inFlight = true → exec i s = .refused .concurrent)
    ∧ (¬ (s.irq.phase = .idle ∧ s.xfer.inFlight = true) → ∃ t, exec i s = .next t)

/-! ### The data path -/

/-- 41_datapath.md R160: `begin_short_read` of 2^b bytes, b from 0 to 14, writes DTIMER, DLENR and DCTRL, in that order,
with P_DTIMER, the byte count and (b << 4) | 3; any other byte count is refused. It is refused as Concurrent while SEQ has a
transfer in flight (60_exceptions.md R278), whatever the byte count: that this check comes first is the model's choice (log
32). The step of ConfigurationRetrieval that primes the data path is `begin_short_read` of 8 bytes (43_sequencer.md R220). -/
def Obligations.ShortReadProgramsTheDataPath : Prop :=
  ∀ s : State, standard s = true →
    (engineBusy s = false →
      (∀ b ≤ 14, ∃ t, beginShortRead (2 ^ b) s = .next t
        ∧ t.regs.dtimer = s.params.dtimer ∧ t.regs.dlenr = BitVec.ofNat 32 (2 ^ b)
        ∧ t.regs.dctrl = (BitVec.ofNat 32 b <<< 4) ||| 3
        ∧ t.trace = .write .dctrl t.regs.dctrl :: .write .dlenr t.regs.dlenr :: .write .dtimer t.regs.dtimer :: s.trace)
      ∧ (∀ n, (∀ b ≤ 14, n ≠ 2 ^ b) → beginShortRead n s = .refused .badByteCount))
    ∧ (engineBusy s = true → ∀ n, beginShortRead n s = .refused .concurrent)
    ∧ (quiet s = true → s.seq.pc = .configPrime →
        (s.xfer.inFlight = true → step s = .refused .concurrent)
        ∧ (s.xfer.inFlight = false → ∃ t, step s = .next t ∧ t.seq.pc = .configScr
          ∧ t.regs.dtimer = s.params.dtimer ∧ t.regs.dlenr = 8 ∧ t.regs.dctrl = 0x33
          ∧ t.engine = s.engine ∧ t.session = s.session))

/-- 41_datapath.md R161, R162, for the two words the block drains. After polls that show an empty FIFO and no terminal flag:
a terminal flag ends the drain with no word and the outcome of R162, `P_OVERRUN_RESULT` for RXOVERR; a FIFO that is not empty
gives the next two FIFO words and Success; a budget spent that way gives Timeout. Every exit writes DATA_FLAGS to ICR last, and
the counters are unwritten from then on (10_state.md R41). -/
def Obligations.DrainOutcomes : Prop :=
  ∀ (n k : Nat) (s : State), standard s = true →
    (∀ j < k, pollWord j (startDrain s) &&& 0x0000012A = 0 ∧ (pollWord j (startDrain s)).getLsbD 19 = true) →
    (k < n → pollWord k (startDrain s) &&& 0x0000012A ≠ 0 →
      drain 2 n s = ([],
        if (pollWord k (startDrain s)).getLsbD 3 = true then .timeout
        else if (pollWord k (startDrain s)).getLsbD 1 = true then .crcFailure
        else if (pollWord k (startDrain s)).getLsbD 5 = true then
          (match s.params.overrunResult with | .crcFailure => .crcFailure | .timeout => .timeout)
        else .timeout,
        leaveLoop 0x18000F3A (pollAfter (k + 1) (startDrain s))))
    ∧ (k < n → pollWord k (startDrain s) &&& 0x0000012A = 0 → (pollWord k (startDrain s)).getLsbD 19 = false →
      (drain 2 n s).1 = [readValue .fifor (pollAfter (k + 1) (startDrain s)),
          readValue .fifor (readNext .fifor (pollAfter (k + 1) (startDrain s)))]
      ∧ (drain 2 n s).2.1 = .success
      ∧ (drain 2 n s).2.2 =
          leaveLoop 0x18000F3A (readNext .fifor (readNext .fifor (pollAfter (k + 1) (startDrain s)))))
    ∧ (k = n → drain 2 n s = ([], .timeout, leaveLoop 0x18000F3A (pollAfter n (startDrain s))))

/-- 41_datapath.md R164: the SCR correction is the byte reversal of `(r1 << 32) | r0`; its high half is the first FIFO
word byte-reversed and its low half the second. The byte reversal of a word has, from the top, its bits 7:0, 15:8, 23:16 and
31:24 (00_scope.md R8). -/
def Obligations.ScrCorrectionReversesTheBytes : Prop :=
  ∀ r0 r1 : Word,
    (bswap32 r0).extractLsb' 24 8 = r0.extractLsb' 0 8 ∧ (bswap32 r0).extractLsb' 16 8 = r0.extractLsb' 8 8
    ∧ (bswap32 r0).extractLsb' 8 8 = r0.extractLsb' 16 8 ∧ (bswap32 r0).extractLsb' 0 8 = r0.extractLsb' 24 8
    ∧ scrCorrect r0 r1 = ((bswap32 r0).setWidth 64 <<< 32) ||| (bswap32 r1).setWidth 64
    ∧ scrCorrect r0 r1 = bswap64 ((r1.setWidth 64 <<< 32) ||| r0.setWidth 64)
    ∧ hiHalf (scrCorrect r0 r1) = bswap32 r0 ∧ loHalf (scrCorrect r0 r1) = bswap32 r1

/-- 41_datapath.md R166 (the spec's own inference from R164 and 30_encoding.md R107): byte reversal is its own inverse,
applying it to the corrected SCR gives `(r1 << 32) | r0` back, and the corrected SCR has the 4-bit capability exactly when bit
18 of the byte-reversed first word, that is bit 10 of the first word, is set. -/
def Obligations.ScrCorrectionCanBeUndone : Prop :=
  (∀ d : DWord, bswap64 (bswap64 d) = d)
  ∧ ∀ r0 r1 : Word,
      bswap64 (scrCorrect r0 r1) = (r1.setWidth 64 <<< 32) ||| r0.setWidth 64
      ∧ loHalf (bswap64 (scrCorrect r0 r1)) = r0 ∧ hiHalf (bswap64 (scrCorrect r0 r1)) = r1
      ∧ (wide4 (scrCorrect r0 r1) = true ↔ (bswap32 r0).getLsbD 18 = true)
      ∧ (wide4 (scrCorrect r0 r1) = true ↔ r0.getLsbD 10 = true)

/-! ### Arithmetic -/

/-- 43_sequencer.md R222, R227: the initialisation divider is the floor of pclk / 800000 and the speed divider the ceiling
of pclk / (2 rate), at least 1. -/
def Obligations.DividerLaws : Prop :=
  (∀ pclk : Nat, (initDivider pclk : Int) = ⌊(pclk : ℚ) / 800000⌋ ∧ initDivider pclk = pclk / 800000)
  ∧ ∀ pclk rate : Nat, 1 ≤ pclk → 1 ≤ rate →
      (speedDivider pclk rate : Int) = ⌈(pclk : ℚ) / (2 * rate)⌉
      ∧ speedDivider pclk rate = (pclk + 2 * rate - 1) / (2 * rate) ∧ 1 ≤ speedDivider pclk rate

/-- 43_sequencer.md R228: the settle time is the ceiling of 1 + 74000 / init_clock_rate_khz, with init_clock_rate_khz =
pclk / (2 init_div 1000) as an exact rational; over integers it is 1 + (148000000 init_div + pclk - 1) / pclk. -/
def Obligations.SettleTimeIsTheCeiling : Prop :=
  ∀ pclk d : Nat, 1 ≤ pclk → 1 ≤ d →
    (settleUs pclk d : Int) = ⌈(1 : ℚ) + 74000 / ((pclk : ℚ) / (2 * d * 1000))⌉
    ∧ settleUs pclk d = 1 + (148000000 * d + pclk - 1) / pclk

/-- 43_sequencer.md R229: in the range of R210 the card bus clock is at least 400 kHz during bring-up and at most the target
rate after the speed transition, and both dividers are from 1 to 1023. -/
def Obligations.BusClockBounds : Prop :=
  ∀ pclk rate : Nat, clockInRange pclk rate = true →
    (400000 : ℚ) ≤ pclk / (2 * initDivider pclk) ∧ (pclk : ℚ) / (2 * speedDivider pclk rate) ≤ rate
    ∧ 1 ≤ initDivider pclk ∧ initDivider pclk ≤ 1023 ∧ 1 ≤ speedDivider pclk rate ∧ speedDivider pclk rate ≤ 1023

/-! ### Reset and BringUp -/

/-- 10_state.md R69: at reset every controller register but FIFOR is 0, every session register is unwritten, the transfer
record is false, false, false, 0, false, and `pc = Off`; and every BringUp that is admitted makes the session registers
unwritten again. -/
def Obligations.ResetState : Prop :=
  (∀ r : Reg, r ≠ .fifor → State.reset.regs.get r = 0)
  ∧ State.reset.session = Session.unwritten
  ∧ State.reset.xfer = ⟨false, false, false, 0, false⟩
  ∧ State.reset.seq.pc.state = .off
  ∧ ∀ (rate : Nat) (s t : State), bringUp rate s = .next t → t.session = Session.unwritten

/-- 43_sequencer.md R210, 70_reset_and_hazards.md R301: BringUp is refused as Concurrent while a BringUp runs or a transfer is
in flight, else as ClockOutOfRange outside the clock range; else it makes the session registers unwritten, computes the two
dividers and moves to PowerUp, and writes no controller register and not the transfer record. That SEQ also counts as busy, and
BringUp is refused, while a WaitTransfer runs or a command word waits in the slot is the model's choice after 60_exceptions.md
R278 (log 13). How a step takes a call of HOST, this one or another (00_scope.md R6, 60_exceptions.md R278, D33; the queue is
the model's, log 13): where no handler runs or is requested and no word waits, the first call of the queue runs if SEQ is free;
if SEQ is busy a serialised call waits and SEQ goes on, and a call from another execution context is taken at once, refused as
Concurrent but for register accesses, the routing of the interrupt and a StartTransfer that its own rule refuses; no other step
takes a call, and every step of SEQ ends as `seqCommit` says (R265, R270; log 7). -/
def Obligations.BringUpEntry : Prop :=
  (∀ s : State, s.irq.phase = .idle → s.irq.latched = false → s.engine.slot = none →
    (s.calls = [] → step s = seqCommit s (seqOwn s))
    ∧ ∀ c rest, s.calls = c :: rest →
      (seqBusy s = false → step s = seqCommit s (doCall c.op (s.setCalls rest)))
      ∧ (seqBusy s = true → c.serialised = true →
          step s = seqCommit s (seqOwn s) ∧ ∀ t, step s = .next t → t.calls = c :: rest)
      ∧ (seqBusy s = true → c.serialised = false → step s = seqCommit s (otherContext c.op (s.setCalls rest))))
  ∧ (∀ s t : State, s.irq.phase ≠ .idle ∨ s.irq.latched = true ∨ s.engine.slot ≠ none → step s = .next t →
      t.calls = s.calls)
  ∧ (∀ s t : State, seqCommit s (.next t) =
      if canInterrupt s = true ∧ t.irq.latched = true ∧ t.xfer.inFlight = false then .fault .handlerOutsideTransfer
      else .next t)
  ∧ (∀ (s : State) (e : Fault), seqCommit s (.fault e) = .fault e)
  ∧ (∀ (s : State) (e : Refusal), seqCommit s (.refused e) = .refused e)
  ∧ (∀ s : State,
      (∀ rate, doCall (.bringUp rate) s = bringUp rate s) ∧ (∀ m, doCall (.startTransfer m) s = startTransfer m s)
      ∧ doCall .waitTransfer s = startWait s ∧ (∀ n, doCall (.shortRead n) s = beginShortRead n s)
      ∧ (∀ a w, doCall (.memRead a w) s = memRead a w s) ∧ (∀ a w v, doCall (.memWrite a w v) s = memWrite a w v s)
      ∧ (∀ f, doCall (.readRecord f) s = readRecord f s) ∧ doCall .routeIrq s = routeIrq s)
  ∧ (∀ s : State, seqBusy s = true →
      (∀ rate, otherContext (.bringUp rate) s = .refused .concurrent)
      ∧ (∀ m, otherContext (.startTransfer m) s =
          if s.seq.pc = .ready ∧ s.xfer.inFlight = false ∧ s.seq.acquired = true then .refused .concurrent
          else .refused .notReady)
      ∧ otherContext .waitTransfer s = .refused .concurrent
      ∧ (∀ n, otherContext (.shortRead n) s = .refused .concurrent)
      ∧ (∀ f, otherContext (.readRecord f) s = .refused .concurrent)
      ∧ (∀ a w, otherContext (.memRead a w) s = memRead a w s)
      ∧ (∀ a w v, otherContext (.memWrite a w v) s = memWrite a w v s)
      ∧ otherContext .routeIrq s = routeIrq s)
  ∧ ∀ (rate : Nat) (s : State),
    (seqBusy s = true ∨ s.xfer.inFlight = true → bringUp rate s = .refused .concurrent)
    ∧ (seqBusy s = false → s.xfer.inFlight = false → clockInRange s.params.pclk rate = false →
        bringUp rate s = .refused .clockOutOfRange)
    ∧ (seqBusy s = false → s.xfer.inFlight = false → clockInRange s.params.pclk rate = true →
        ∃ t, bringUp rate s = .next t
          ∧ t.seq.pc = .powerUp ∧ t.session = Session.unwritten
          ∧ t.seq.initDiv.toNat = s.params.pclk / 800000
          ∧ t.seq.speedDiv.toNat = (s.params.pclk + 2 * rate - 1) / (2 * rate)
          ∧ t.regs = s.regs ∧ t.xfer = s.xfer ∧ t.trace = s.trace)

/-- 43_sequencer.md R211, 70_reset_and_hazards.md R310, R311: PowerUp configures the six pins, writes CLKCR with the
initialisation divider and a 1-bit bus and powers the bus on, each by a read-modify-write, waits the settle time, in this
order, and moves to Idle. Everything else is kept: every other register, the session, the record, the engine, the loop counters,
the rest of SEQ, IRQ, ENV, HOST's queue and the parameters. -/
def Obligations.PowerUpEffect : Prop :=
  ∀ s : State, standard s = true → quiet s = true → s.seq.pc = .powerUp →
    ∃ t, step s = .next t
      ∧ t.seq = { s.seq with pc := .idleIssue }
      ∧ t.session = s.session ∧ t.xfer = s.xfer ∧ t.engine = s.engine ∧ t.irq = s.irq ∧ t.calls = s.calls
      ∧ t.loop = s.loop ∧ t.env = s.env ∧ t.params = s.params
      ∧ (∀ r : Reg, r ≠ .clkcr → r ≠ .power → t.regs.get r = s.regs.get r)
      ∧ t.regs.clkcr = (s.regs.clkcr &&& ~~~(0x0003D3FF : Word)) |||
          ((s.params.hwfc.setWidth 32 <<< 17) ||| (s.params.negedge.setWidth 32 <<< 16)
            ||| (s.params.pwrsav.setWidth 32 <<< 12) ||| s.seq.initDiv.setWidth 32)
      ∧ t.regs.power = (s.regs.power &&& ~~~(3 : Word)) ||| 3
      ∧ t.trace =
          .delay (settleUs s.params.pclk s.seq.initDiv.toNat)
            :: .write .power t.regs.power :: .read .power (s.regs.power &&& s.params.layout.rw.power)
            :: .write .clkcr t.regs.clkcr :: .read .clkcr (s.regs.clkcr &&& s.params.layout.rw.clkcr)
            :: .pin .d3 s.params.pinAf :: .pin .d2 s.params.pinAf :: .pin .d1 s.params.pinAf :: .pin .d0 s.params.pinAf
            :: .pin .cmd s.params.pinAf :: .pin .clk s.params.pinAf :: s.trace

/-- 43_sequencer.md R212, R213: after CMD0 any outcome but Success fails with Timeout; after a CMD8 trial Success writes
version 2 and goes on, a CRC failure or hardware timeout writes "not version 2" and fails with CardUnsupported at once, an
exhausted budget is retried up to ten trials and then fails with Timeout. -/
def Obligations.IdleAndProbeOutcomes : Prop :=
  ∀ s : State, quiet s = true →
    (s.seq.pc = .idleReply →
      step s = .next (if s.engine.reply.out = .success then s.setPc (.probeIssue 0) else fail .timeout s))
    ∧ ∀ trial : Nat, s.seq.pc = .probeReply trial →
        (s.engine.reply.out = .success →
          step s = .next ((s.setSession { s.session with version2 := some true }).setPc (.voltPrefix 0)))
        ∧ (s.engine.reply.out = .crcFailure ∨ s.engine.reply.out = .hwTimeout →
          step s = .next (fail .cardUnsupported (s.setSession { s.session with version2 := some false })))
        ∧ (s.engine.reply.out = .budgetExhausted →
          step s = .next (if trial < 9 then s.setPc (.probeIssue (trial + 1)) else fail .timeout s))

/-- 43_sequencer.md R214, 40_engine.md R146: a round of the negotiation fails with the error of a failed prefix, and with
CardUnsupported where the echoed index is not 55; after ACMD41 bit 31 of the response ends the loop, and without it the next
round follows, up to P_VOLT_BUDGET rounds, then Timeout. -/
def Obligations.VoltageNegotiationRounds : Prop :=
  ∀ (round : Nat) (s : State), standard s = true → quiet s = true →
    (s.seq.pc = .voltPrefixReply round →
      (s.engine.reply.out = .crcFailure → step s = .next (fail .crcFailure s))
      ∧ (s.engine.reply.out = .hwTimeout ∨ s.engine.reply.out = .budgetExhausted → step s = .next (fail .timeout s))
      ∧ (s.engine.reply.out = .success →
          step s = .next (if (readValue .respcmdr s).extractLsb' 0 6 = 55#6
            then (readNext .respcmdr s).setPc (.voltCond round) else fail .cardUnsupported (readNext .respcmdr s))))
    ∧ (s.seq.pc = .voltCondReply round →
      (s.engine.reply.out = .crcFailure → step s = .next (fail .crcFailure s))
      ∧ (s.engine.reply.out = .hwTimeout ∨ s.engine.reply.out = .budgetExhausted → step s = .next (fail .timeout s))
      ∧ (s.engine.reply.out = .success →
          step s = .next (if s.engine.reply.resp.w0.getLsbD 31 = true then s.setPc .capacity
            else if round + 1 < s.params.voltBudget then s.setPc (.voltPrefix (round + 1)) else fail .timeout s)))

/-- 43_sequencer.md R215, R221: CapacityCheck fails with CapacityUnsupported exactly when bit 30 of the OCR is set;
BusWidthNegotiation fails with BusWidthUnsupported, with no word put out, exactly when the SCR lacks bit 50, and else puts
out CMD55 with the RCA. A register that is unwritten faults (00_scope.md R9). -/
def Obligations.CapabilityChecks : Prop :=
  ∀ s : State, standard s = true → quiet s = true →
    (s.seq.pc = .capacity →
      (s.session.ocr = none → step s = .fault (.unwrittenRead .ocr))
      ∧ ∀ o, s.session.ocr = some o →
          step s = .next (if o.getLsbD 30 = true then fail .capacityUnsupported s else s.setPc .identIssue))
    ∧ (s.seq.pc = .widthPrefix →
      (s.session.scr = none → step s = .fault (.unwrittenRead .scr))
      ∧ (∀ d, s.session.scr = some d → d.getLsbD 50 = false → step s = .next (fail .busWidthUnsupported s))
      ∧ (∀ d, s.session.scr = some d → d.getLsbD 50 = true → s.session.rca = none →
          step s = .fault (.unwrittenRead .rca))
      ∧ (∀ d rca, s.session.scr = some d → d.getLsbD 50 = true → s.session.rca = some rca →
          ∃ t, step s = .next t ∧ t.seq = { s.seq with pc := .widthPrefixReply }
            ∧ t.engine = { s.engine with slot := some ⟨rca, 0x00001137⟩ }
            ∧ t.regs = s.regs ∧ t.session = s.session ∧ t.xfer = s.xfer ∧ t.trace = s.trace))

/-- 43_sequencer.md R212 to R214, R216 to R221, R224: each state that issues a word puts that row's word, with the argument its
rule gives, where the next step runs it, and moves to the point that takes the word's outcome, with the same loop counter
(10_state.md R41); it changes no register and nothing else of SEQ. The words whose argument is the RCA need it written; the others
are put whether it is or not. BusWidthNegotiation's CMD55 is in CapabilityChecks. -/
def Obligations.StatesIssueTheirWords : Prop :=
  ∀ (s : State) (n : Nat), standard s = true → quiet s = true →
    (∀ e ∈ ([(.idleIssue, .idleReply, 0, 0x00001000), (.probeIssue n, .probeReply n, 0x000001AA, 0x00001108),
        (.voltPrefix n, .voltPrefixReply n, 0, 0x00001137), (.voltCond n, .voltCondReply n, 0xC0100000, 0x00001129),
        (.identIssue, .identReply, 0, 0x00001302), (.addrIssue, .addrReply, 0, 0x00001103),
        (.configLen, .configLenReply, 8, 0x00001110), (.configScr, .configScrReply, 0, 0x00001133),
        (.widthSet, .widthSetReply, 2, 0x00001106)] : List (SeqPoint × SeqPoint × Word × Word)),
      s.seq.pc = e.1 →
      ∃ t, step s = .next t ∧ t.engine = { s.engine with slot := some ⟨e.2.2.1, e.2.2.2⟩ }
        ∧ t.seq = { s.seq with pc := e.2.1 }
        ∧ t.regs = s.regs ∧ t.session = s.session ∧ t.xfer = s.xfer ∧ t.trace = s.trace)
    ∧ ∀ e ∈ ([(.csdIssue, .csdReply, 0x00001309), (.selectIssue, .selectReply, 0x00001107),
        (.configPrefix, .configPrefixReply, 0x00001137),
        (.readyIssue n, .readyReply n, 0x0000110D)] : List (SeqPoint × SeqPoint × Word)),
      s.seq.pc = e.1 →
      (s.session.rca = none → step s = .fault (.unwrittenRead .rca))
      ∧ ∀ rca, s.session.rca = some rca →
        ∃ t, step s = .next t ∧ t.engine = { s.engine with slot := some ⟨rca, e.2.2⟩ }
          ∧ t.seq = { s.seq with pc := e.2.1 }
          ∧ t.regs = s.regs ∧ t.session = s.session ∧ t.xfer = s.xfer ∧ t.trace = s.trace

/-- 43_sequencer.md R220, 41_datapath.md R163, R165: the drain of ConfigurationRetrieval stores the two words and the
corrected SCR on Success and goes on; on CrcFailure or Timeout it fails with that error and stores nothing. Either way every
other session register but `last_status`, every register but STAR, ICR and FIFOR, the record, the engine and the rest of SEQ
are kept. While a transfer is in flight the drain is refused as Concurrent (60_exceptions.md R278). -/
def Obligations.ScrIsStoredAfterTheDrain : Prop :=
  ∀ s : State, quiet s = true → s.seq.pc = .configDrain →
    (s.xfer.inFlight = true → step s = .refused .concurrent)
    ∧ (s.xfer.inFlight = false → ∀ ws d u, drain 2 s.params.drainBudget s = (ws, d, u) →
      u.session = { s.session with lastStatus := u.session.lastStatus }
      ∧ u.xfer = s.xfer ∧ u.engine = s.engine ∧ u.seq = s.seq ∧ u.irq = s.irq ∧ u.calls = s.calls
      ∧ (∀ r : Reg, r ≠ .star → r ≠ .icr → r ≠ .fifor → u.regs.get r = s.regs.get r)
      ∧ (d = .success → ∃ w0 w1 rest, ws = w0 :: w1 :: rest
        ∧ step s = .next ((u.setSession { u.session with
            scrRaw := some ⟨w0, w1⟩, scr := some (bswap32 w0 ++ bswap32 w1) }).setPc .widthPrefix))
      ∧ (d = .crcFailure → step s = .next (fail .crcFailure u))
      ∧ (d = .timeout → step s = .next (fail .timeout u)))

/-- 43_sequencer.md R223: SpeedTransition sets the bus width to 4 bits and the divider to the speed divider in one
read-modify-write of CLKCR, keeps every other CLKCR bit outside the five fields, and moves to ReadyCheck. Everything else is
kept: every other register, the session, the record, the engine, the loop counters, the rest of SEQ, IRQ, ENV, HOST's queue and the
parameters. -/
def Obligations.SpeedTransitionEffect : Prop :=
  ∀ s : State, standard s = true → quiet s = true → s.seq.pc = .speed →
    ∃ t, step s = .next t
      ∧ t.seq = { s.seq with pc := .readyIssue 0 }
      ∧ t.session = s.session ∧ t.xfer = s.xfer ∧ t.engine = s.engine ∧ t.irq = s.irq ∧ t.calls = s.calls
      ∧ t.loop = s.loop ∧ t.env = s.env ∧ t.params = s.params
      ∧ (∀ r : Reg, r ≠ .clkcr → t.regs.get r = s.regs.get r)
      ∧ t.regs.clkcr = (s.regs.clkcr &&& ~~~(0x0003D3FF : Word)) |||
          ((s.params.hwfc.setWidth 32 <<< 17) ||| (s.params.negedge.setWidth 32 <<< 16) ||| 0x00004000
            ||| (s.params.pwrsav.setWidth 32 <<< 12) ||| s.seq.speedDiv.setWidth 32)
      ∧ t.regs.clkcr.extractLsb' 14 2 = 0b01#2 ∧ t.regs.clkcr.extractLsb' 0 10 = s.seq.speedDiv
      ∧ t.trace = .write .clkcr t.regs.clkcr :: .read .clkcr (s.regs.clkcr &&& s.params.layout.rw.clkcr) :: s.trace

/-- 43_sequencer.md R216 to R221: after the words of Identification, Addressing, CSDRetrieval, Selection,
ConfigurationRetrieval and BusWidthNegotiation, Success goes on to the point the rule names and the error of a failed wait ends
BringUp (`toErr`, 00_scope.md R11). R224, R225: after CMD13 the error of a failed wait ends BringUp; a card state of 4 in bits
12:9 makes the sequencer Ready with result Ready; any other state is queried again, up to P_READY_BUDGET queries, then
Timeout. -/
def Obligations.ReadyCheckOutcomes : Prop :=
  (∀ s : State, quiet s = true →
    ∀ e ∈ ([(.identReply, .addrIssue), (.addrReply, .csdIssue), (.csdReply, .selectIssue), (.selectReply, .configLen),
        (.configLenReply, .configPrefix), (.configPrefixReply, .configPrime), (.configScrReply, .configDrain),
        (.widthPrefixReply, .widthSet), (.widthSetReply, .speed)] : List (SeqPoint × SeqPoint)),
      s.seq.pc = e.1 →
      (s.engine.reply.out = .success → step s = .next (s.setPc e.2))
      ∧ (s.engine.reply.out = .crcFailure → step s = .next (fail .crcFailure s))
      ∧ (s.engine.reply.out = .hwTimeout ∨ s.engine.reply.out = .budgetExhausted → step s = .next (fail .timeout s)))
  ∧ ∀ (query : Nat) (s : State), quiet s = true → s.seq.pc = .readyReply query →
    (s.engine.reply.out = .crcFailure → step s = .next (fail .crcFailure s))
    ∧ (s.engine.reply.out = .hwTimeout ∨ s.engine.reply.out = .budgetExhausted → step s = .next (fail .timeout s))
    ∧ (s.engine.reply.out = .success →
        step s = .next (if s.engine.reply.resp.w0.extractLsb' 9 4 = 0x4#4
          then (s.setSession { s.session with result := some .ready }).setPc .ready
          else if query + 1 < s.params.readyBudget then s.setPc (.readyIssue (query + 1)) else fail .timeout s))

/-- 43_sequencer.md R226: a step that moves to `Failed(E)` leaves `result = E`, the diagnostic status equal to `last_status`
where that is written and untouched where it is not, every controller register the block writes as it was (but for ICR, which
a drain's exit writes), and no word waiting; the card is sent no command: what the step adds to the trace holds no write of ARGR
or CMDR. -/
def Obligations.FailureBookkeeping : Prop :=
  ∀ (s t : State) (e : ErrKind), step s = .next t → t.seq.pc = .failed e → s.seq.pc ≠ .failed e →
    t.session.result = some (.error e)
    ∧ (∀ w, t.session.lastStatus = some w → t.session.diagStatus = some w)
    ∧ (t.session.lastStatus = none → t.session.diagStatus = s.session.diagStatus)
    ∧ t.engine.slot = none
    ∧ (∃ new, t.trace = new ++ s.trace ∧ ∀ v, .write .argr v ∉ new ∧ .write .cmdr v ∉ new)
    ∧ ∀ r : Reg, r.port = none → r ≠ .icr → t.regs.get r = s.regs.get r

/-- 43_sequencer.md R230, 10_state.md R40: every step leaves the sequencer state as it was or moves it along an edge of the
transition table; BringUp moves from Off, Ready or Failed to PowerUp (70_reset_and_hazards.md R301). -/
def Obligations.TransitionTable : Prop :=
  ∀ s t : State, step s = .next t →
    t.seq.pc.state = s.seq.pc.state ∨ s.seq.pc.state.mayMove t.seq.pc.state = true

/-- 43_sequencer.md R231 item 4, 70_reset_and_hazards.md R315: `pc` becomes Ready only by taking a successful CMD13 reply
whose card state is Transfer, and StartTransfer is refused unless `pc = Ready`. -/
def Obligations.ReadyOnlyFromTransferState : Prop :=
  (∀ s t : State, step s = .next t → t.seq.pc = .ready → s.seq.pc ≠ .ready →
    ∃ q, s.seq.pc = .readyReply q ∧ s.engine.reply.out = .success
      ∧ s.engine.reply.resp.w0.extractLsb' 9 4 = 0x4#4 ∧ t.session.result = some .ready)
  ∧ ∀ (m : Bool) (s : State), s.seq.pc ≠ .ready → startTransfer m s = .refused .notReady

/-! ### Invariants of every step -/

/-- The state after reset meets the invariants, and no reserved bit is set in it (10_state.md R69). -/
def Obligations.ResetMeetsTheInvariants : Prop :=
  safeInv State.reset = true ∧ State.reset.regs.reservedClear State.reset.params.layout = true

/-- 43_sequencer.md R231, 30_encoding.md R109, 60_exceptions.md R275, R278, 10_state.md R41: every step keeps the invariant of a
safe run: a transfer in flight is not completed, not yet observed and only exists when the card is ready, a word waits only where its outcome is
awaited and is that point's word, the decoder's prefix bit is the one the word needs, the RCA, OCR and SCR are written by the
states that read them and the RCA by none before Addressing's word, the high-capacity bit is clear after the capacity check and
the 4-bit capability is set after its test, the result is the final state's, the counters `trial`, `round` and `query` are in the
ranges of R41, and no loop counter is written between steps. The
slot is the model's (log 10), the loop counters' home too (log 33), and that BringUp clears the prefix bit is its choice (log
12). -/
def Obligations.StepKeepsTheInvariant : Prop :=
  ∀ s t : State, safeInv s = true → step s = .next t → safeInv t = true

/-- 00_scope.md R9, 30_encoding.md R110, 60_exceptions.md R263: from a state that meets the invariant no step reads an unwritten session register and
no step refuses a word as no instruction of the block. -/
def Obligations.SafeStatesNeverStopOnTheBlocksOwnWords : Prop :=
  ∀ s : State, safeInv s = true →
    (∀ f, step s ≠ .fault (.unwrittenRead f)) ∧ ∀ why, step s ≠ .refused (.notAnInstruction why)

/-- 10_state.md R64, 20_memory.md R74: no step sets a reserved bit of a register, so the reserved bits of the RW registers
stay 0. -/
def Obligations.ReservedBitsStayClear : Prop :=
  ∀ s t : State, standard s = true → s.regs.reservedClear standardLayout = true → step s = .next t →
    t.regs.reservedClear standardLayout = true

/-- 10_state.md R23, 43_sequencer.md R231 item 1: once assigned, the RCA is immutable: no step changes it, into a failure or
otherwise, but the BringUp that begins the next session (which moves to PowerUp). -/
def Obligations.RcaIsImmutable : Prop :=
  ∀ (s t : State) (rca : Word), safeInv s = true → s.session.rca = some rca → step s = .next t →
    t.seq.pc.state ≠ .powerUp → t.session.rca = some rca

/-- 00_scope.md R7: no step changes the parameters. 20_memory.md R75, R81: the trace, the model's own record (log 19), keeps
the accesses made before, and what a step adds to it accounts for every change of a register: a register that ENV does not
answer changes only where the step wrote it, and then holds the word last written (less its reserved bits); a sticky flag of
STAR that is set drops only where the step wrote its bit to ICR (10_state.md R60, R61). -/
def Obligations.ParametersFixedAndTraceGrows : Prop :=
  ∀ s t : State, step s = .next t →
    t.params = s.params
    ∧ ∃ new, t.trace = new ++ s.trace
      ∧ (∀ r : Reg, r.port = none → t.regs.get r ≠ s.regs.get r →
          ∃ v, lastWritten r new = some v ∧ (t.regs.get r = v ∨ t.regs.get r = v &&& s.params.layout.rw.get r))
      ∧ ∀ n, (s.regs.star &&& s.params.layout.rw.icr).getLsbD n = true → t.regs.star.getLsbD n = false →
          ∃ v, .write .icr v ∈ new ∧ v.getLsbD n = true

/-- 10_state.md R27, 60_exceptions.md R285: no step reads `diag_status`: from two states that differ in nothing else, the steps are both the same
fault, both the same refusal, or next states that differ in nothing else. -/
def Obligations.DiagStatusIsReadByNoRule : Prop :=
  ∀ (s : State) (d : Option Word),
    let s' := s.setSession { s.session with diagStatus := d }
    (∀ e, step s = .fault e ↔ step s' = .fault e) ∧ (∀ e, step s = .refused e ↔ step s' = .refused e)
    ∧ ∀ t, step s = .next t → ∃ t', step s' = .next t' ∧ sameButDiag t t'

/-! ### The interrupt handler -/

/-- 60_exceptions.md R270, R265: where the line has been found raised and no handler runs, the step is the handler's entry:
a fault outside a transfer; else the handler runs next and nothing else changes. -/
def Obligations.InterruptEntry : Prop :=
  ∀ s : State, s.irq.phase = .idle → s.irq.latched = true →
    (s.xfer.inFlight = false → step s = .fault .handlerOutsideTransfer)
    ∧ (s.xfer.inFlight = true → step s = .next (s.setIrq ⟨s.irq.routed, false, .dispatch⟩))

/-- 60_exceptions.md R271, R272: at a status word with DATAEND and no data-error flag the handler clears the data flags and
the data-path enables, clears CMDTRANS, and zeroes DLENR, DCTRL and IDMACTRLR, in that order; other bits of MASKR and CMDR,
the session and the record are kept; a multi-block transfer goes on to the stop command, any other to the release. -/
def Obligations.DataEndPath : Prop :=
  ∀ s : State, standard s = true → s.irq.phase = .dispatch → readValue .star s &&& 0x0000003A = 0 → (readValue .star s).getLsbD 8 = true →
    ∃ t, step s = .next t
      ∧ t.regs.icr = 0x18000F3A ∧ t.regs.maskr = s.regs.maskr &&& ~~~(0x0000C13A : Word)
      ∧ t.regs.cmdr = s.regs.cmdr &&& ~~~(0x00000040 : Word)
      ∧ t.regs.dlenr = 0 ∧ t.regs.dctrl = 0 ∧ t.regs.idmactrlr = 0
      ∧ t.regs.star = readValue .star s &&& ~~~(0x18000F3A : Word)
      ∧ t.regs.argr = s.regs.argr ∧ t.regs.clkcr = s.regs.clkcr ∧ t.regs.power = s.regs.power
      ∧ t.regs.dtimer = s.regs.dtimer
      ∧ t.xfer = s.xfer ∧ t.session = s.session ∧ t.seq = s.seq
      ∧ t.irq.phase = (if s.xfer.multiBlock = true then .stop else .release)
      ∧ t.trace =
          .write .idmactrlr 0 :: .write .dctrl 0 :: .write .dlenr 0
            :: .write .cmdr t.regs.cmdr :: .read .cmdr (s.regs.cmdr &&& s.params.layout.rw.cmdr)
            :: .write .maskr t.regs.maskr :: .read .maskr (s.regs.maskr &&& s.params.layout.rw.maskr)
            :: .write .icr 0x18000F3A :: .read .star (readValue .star s) :: s.trace

/-- 60_exceptions.md R271, R274: at a status word with a data-error flag, DATAEND or not, the handler snapshots the word,
clears the data flags and the data-path enables, and sets the error; it writes no other register (every register that ENV does
not answer, but ICR and MASKR, is kept), sends no stop command, even for a multi-block transfer, and releases next. -/
def Obligations.DataErrorPath : Prop :=
  ∀ s : State, standard s = true → s.irq.phase = .dispatch → readValue .star s &&& 0x0000003A ≠ 0 →
    ∃ t, step s = .next t
      ∧ t.xfer = { s.xfer with status := readValue .star s, error := true }
      ∧ t.regs.icr = 0x18000F3A ∧ t.regs.maskr = s.regs.maskr &&& ~~~(0x0000C13A : Word)
      ∧ (∀ r : Reg, r.port = none → r ≠ .icr → r ≠ .maskr → t.regs.get r = s.regs.get r)
      ∧ t.regs.star = readValue .star s &&& ~~~(0x18000F3A : Word)
      ∧ t.session = s.session ∧ t.seq = s.seq ∧ t.irq.phase = .release

/-- 60_exceptions.md R271, R273, 42_commands.md R187, D46: with neither a data-error flag nor DATAEND the handler writes nothing
and returns; the stop command is CMD12 with argument 0, awaited with P_STOP_BUDGET; any outcome of it but Success sets the
error flag and nothing else of the record, and the release follows either way. That CMD12 is decoded without a prefix and
leaves the prefix bit clear is the model's choice (log 12). -/
def Obligations.StopCommandAndSpuriousEntry : Prop :=
  ∀ s : State, standard s = true →
    (s.irq.phase = .dispatch → readValue .star s &&& 0x0000003A = 0 → (readValue .star s).getLsbD 8 = false →
      ∃ t, step s = .next t ∧ t.irq.phase = .idle ∧ t.xfer = s.xfer ∧ t.session = s.session
        ∧ t.trace = .read .star (readValue .star s) :: s.trace)
    ∧ (s.irq.phase = .stop →
      ∃ t, step s = .next t ∧ t.irq.phase = .collect ∧ t.regs.argr = 0
        ∧ t.regs.cmdr = (s.regs.cmdr &&& ~~~(0x00011F3F : Word)) ||| 0x0000110C
        ∧ t.xfer = s.xfer ∧ t.engine.slot = s.engine.slot ∧ t.engine.appPending = false
        ∧ t.engine.reply.out = (awaitResponse s.params.stopBudget
            (sent (.cmd12 0) (s.setEngine { s.engine with appPending := false }))).1)
    ∧ (s.irq.phase = .collect →
      ∃ t, step s = .next t ∧ t.irq.phase = .release ∧ t.regs = s.regs
        ∧ t.xfer = if s.engine.reply.out = .success then s.xfer else { s.xfer with error := true })

/-- 60_exceptions.md R275, R279: the release clears multi_block and in_flight and sets completed, leaves error and status,
and returns to the interrupted context; nothing of SEQ, the session or the registers but STAR changes. -/
def Obligations.ReleaseCompletesTheTransfer : Prop :=
  ∀ s : State, s.irq.phase = .release →
    ∃ t, step s = .next t
      ∧ t.xfer = ⟨true, s.xfer.error, false, s.xfer.status, false⟩
      ∧ t.irq.phase = .idle ∧ t.seq = s.seq ∧ t.session = s.session ∧ t.engine = s.engine ∧ t.trace = s.trace
      ∧ ∀ r : Reg, r ≠ .star → t.regs.get r = s.regs.get r

/-- 10_state.md R30, 60_exceptions.md R275, R278: while a transfer is in flight no step of SEQ writes the transfer record; and
`completed` becomes true by the handler's release only. R21 to R27, R69, the Session record: but for BringUp, which begins a
session (and moves to PowerUp), a step changes the CID, the CSD, the RCA or the OCR only where the word CMD2, CMD9, CMD3, or
ACMD41 or CMD1 waits in the slot, in a safe run the word of Identification, CSDRetrieval, Addressing or VoltageNegotiation; the SCR
only at the drain of ConfigurationRetrieval, the version flag only at a reply of VersionProbe, `result` only where BringUp ends
and `diag_status` only where it fails. CMD1 is the model's reading (log 23). -/
def Obligations.RecordWritersAreDisciplined : Prop :=
  (∀ s t : State, step s = .next t → s.irq.phase = .idle → s.xfer.inFlight = true → t.xfer = s.xfer)
  ∧ (∀ s t : State, step s = .next t → s.xfer.completed = false → t.xfer.completed = true → s.irq.phase = .release)
  ∧ ∀ s t : State, standard s = true → step s = .next t → t.seq.pc.state ≠ .powerUp →
    (t.session.cid ≠ s.session.cid → (∃ w a, s.engine.slot = some w
        ∧ decode s.params.layout s.engine.appPending w = .instr (.cmd2 a)) ∧ (safeInv s = true → s.seq.pc = .identReply))
    ∧ (t.session.csd ≠ s.session.csd → (∃ w a, s.engine.slot = some w
        ∧ decode s.params.layout s.engine.appPending w = .instr (.cmd9 a)) ∧ (safeInv s = true → s.seq.pc = .csdReply))
    ∧ (t.session.rca ≠ s.session.rca → (∃ w a, s.engine.slot = some w
        ∧ decode s.params.layout s.engine.appPending w = .instr (.cmd3 a)) ∧ (safeInv s = true → s.seq.pc = .addrReply))
    ∧ (t.session.ocr ≠ s.session.ocr → (∃ w a, s.engine.slot = some w
        ∧ (decode s.params.layout s.engine.appPending w = .instr (.acmd41 a)
          ∨ decode s.params.layout s.engine.appPending w = .instr (.cmd1 a)))
        ∧ (safeInv s = true → ∃ n, s.seq.pc = .voltCondReply n))
    ∧ (t.session.scrRaw ≠ s.session.scrRaw ∨ t.session.scr ≠ s.session.scr → s.seq.pc = .configDrain)
    ∧ (t.session.version2 ≠ s.session.version2 → ∃ n, s.seq.pc = .probeReply n)
    ∧ (t.session.result ≠ s.session.result → t.seq.pc = .ready ∨ ∃ e, t.seq.pc = .failed e)
    ∧ (t.session.diagStatus ≠ s.session.diagStatus → ∃ e, t.seq.pc = .failed e)

/-! ### HOST's operations -/

/-- 60_exceptions.md R276, R278, 70_reset_and_hazards.md R316, D45: StartTransfer is refused as NotReady unless the card is
ready, no transfer is in flight and SEQ has observed the previous one's `completed`; else it resets the record, stores the
multi-block flag and puts the transfer in flight, last. R265, R270: where the line is found raised at one of the preemption points
before the last write, while no transfer is in flight yet, the handler entered there is the fault. From then on SEQ has not
acquired `completed` for the current transfer (20_memory.md R80; log 17). That the refusal before the observation is NotReady is
the model's reading (log 29). -/
def Obligations.StartTransferEffect : Prop :=
  ∀ (multi : Bool) (s : State),
    (s.seq.pc ≠ .ready ∨ s.xfer.inFlight = true ∨ s.seq.acquired = false → startTransfer multi s = .refused .notReady)
    ∧ (s.seq.pc = .ready → s.xfer.inFlight = false → s.seq.acquired = true → s.irq.phase = .idle → s.irq.latched = false →
        ((pointAfter 4 s).irq.latched = false →
          ∃ t, startTransfer multi s = .next t ∧ t.xfer = ⟨false, false, multi, 0, true⟩
            ∧ t.session = s.session ∧ t.trace = s.trace
            ∧ t.seq = { s.seq with acquired := false, startMulti := multi }
            ∧ ∀ r : Reg, r ≠ .star → t.regs.get r = s.regs.get r)
        ∧ ((pointAfter 4 s).irq.latched = true → startTransfer multi s = .fault .handlerOutsideTransfer))

/-- 60_exceptions.md R277, D45: each poll of WaitTransfer reads `completed`; if it is true the wait returns TransferError or
Ready, by `error`, with `status`; else it polls again, P_WAIT_BUDGET times in all, and then returns Timeout; no poll writes
the record or a session register (log 30). A poll that reads true is the acquire of 20_memory.md R80: it is followed by the reads
of `error` and `status`. R265, R270: where no transfer is in flight and the line is found raised at a preemption point of the
poll's reads, the handler entered there is the fault; in every other case the poll is made, the line enabled or not. -/
def Obligations.WaitTransferPolls : Prop :=
  ∀ s : State, s.irq.phase = .idle → s.irq.latched = false → s.engine.slot = none → s.calls = [] →
    (∃ t, startWait s = .next t ∧ t.seq = { s.seq with wait := some (s.params.waitBudget - 1) } ∧ t.xfer = s.xfer)
    ∧ ∀ left, s.seq.wait = some left →
        let raised := (pointAfter (if s.xfer.completed = true then 3 else 1) s).irq.latched
        (s.xfer.inFlight = false → raised = true → step s = .fault .handlerOutsideTransfer)
        ∧ (s.xfer.inFlight = true ∨ raised = false →
          ∃ t, step s = .next t ∧ t.xfer = s.xfer ∧ t.session = s.session ∧ t.engine = s.engine ∧ t.irq.latched = raised
            ∧ (∀ r : Reg, r ≠ .star → t.regs.get r = s.regs.get r)
            ∧ (s.xfer.completed = true →
                t.seq = { s.seq with
                  wait := none, acquired := true
                  waitRet := some (.done (if s.xfer.error = true then .error .transferError else .ready) s.xfer.status) }
                ∧ t.trace = .record .status s.xfer.status :: .record .error (if s.xfer.error = true then 1 else 0)
                    :: .record .completed 1 :: s.trace)
            ∧ (s.xfer.completed = false → t.trace = .record .completed 0 :: s.trace
                ∧ (left = 0 → t.seq = { s.seq with wait := none, waitRet := some .timeout })
                ∧ (0 < left → t.seq = { s.seq with wait := some (left - 1) })))

/-- 20_memory.md R71: an access of the window is made exactly when it is 4 bytes wide, naturally aligned, and at the offset
of a register of the table; every other is refused as BadAccess. -/
def Obligations.WindowAccesses : Prop :=
  ∀ (s : State) (addr : Word) (width : Nat), standard s = true →
    (∀ r : Reg, s.params.base + standardOffsets.get r = addr → width = 4 → addr.extractLsb' 0 2 = 0#2 →
      memRead addr width s = .next (readNext r s) ∧ ∀ v, memWrite addr width v s = .next (writeReg r v s))
    ∧ ((width ≠ 4 ∨ addr.extractLsb' 0 2 ≠ 0#2 ∨ ∀ r : Reg, s.params.base + standardOffsets.get r ≠ addr) →
      memRead addr width s = .refused .badAccess ∧ ∀ v, memWrite addr width v s = .refused .badAccess)

/-- 20_memory.md R74, R73, 10_state.md R60, R61, R64: a read of an RW register after a write gives the value written on the RW
bits and 0 on the reserved bits (for ICR too, which is the model's choice, log 28), and other registers keep their word (but
ICR's write, which clears in STAR exactly the sticky flags written 1, where no preemption point shows new flags); a
read-modify-write of RW bits changes those bits only, the reserved ones among the others. A read of STAR shows ENV's answer
with every sticky flag that STAR holds. -/
def Obligations.RegisterReadAfterWrite : Prop :=
  ∀ (r q : Reg) (v mask : Word) (s : State), standard s = true →
    readValue .star s = envValue .star s ||| (s.regs.star &&& 0x1FE00FFF)
    ∧ (r.port = none →
      readValue r (writeReg r v s) = v &&& standardRw.get r
      ∧ (q ≠ r → q ≠ .star → (writeReg r v s).regs.get q = s.regs.get q)
      ∧ (canInterrupt s = false → r ≠ .maskr → (writeReg r v s).regs.star =
          if r = .icr then s.regs.star &&& ~~~(v &&& 0x1FE00FFF) else s.regs.star)
      ∧ (mask &&& ~~~(standardRw.get r) = 0 →
          (rmw r mask v s).regs.get r &&& mask = v &&& mask
          ∧ (rmw r mask v s).regs.get r &&& ~~~mask = s.regs.get r &&& ~~~mask
          ∧ (q ≠ r → q ≠ .star → (rmw r mask v s).regs.get q = s.regs.get q)))

/-- 20_memory.md R80 items 2 and 3: a read of the record after SEQ has acquired `completed = true` gives the field's value;
before that a read of `error`, `multi_block` or `status` gives the value StartTransfer wrote or one that IRQ writes. Which
values those are follows log 17: in a completed transfer the field's value; before that true for `error`, false for
`multi_block`, and for `status` a word with a data-error flag (60_exceptions.md R271, R273 to R275). SEQ's read of a field gives
that value, is made in one access, and acquires exactly where it reads `completed` as true; StartTransferEffect and
WaitTransferPolls say what else sets and clears the acquisition. -/
def Obligations.RecordReads : Prop :=
  ∀ s : State,
    (∀ f, ∃ t, readRecord f s = .next t ∧ t.trace = .record f (recordRead f s) :: s.trace
      ∧ t.seq = { s.seq with acquired := t.seq.acquired }
      ∧ (t.seq.acquired = true ↔ s.seq.acquired = true ∨ (f = .completed ∧ recordRead f s = 1))
      ∧ t.xfer = s.xfer ∧ t.session = s.session ∧ t.engine = s.engine
      ∧ ∀ r : Reg, r ≠ .star → t.regs.get r = s.regs.get r)
    ∧ recordNow .completed s = (if s.xfer.completed = true then 1 else 0)
    ∧ recordNow .error s = (if s.xfer.error = true then 1 else 0)
    ∧ recordNow .multiBlock s = (if s.xfer.multiBlock = true then 1 else 0)
    ∧ recordNow .status s = s.xfer.status
    ∧ (∀ f, s.seq.acquired = true → recordRead f s = recordNow f s)
    ∧ recordRead .completed s = recordNow .completed s
    ∧ (s.seq.acquired = false →
        (recordRead .error s = 0 ∨ recordRead .error s = if s.xfer.completed then boolWord s.xfer.error else 1)
        ∧ (recordRead .multiBlock s = boolWord s.seq.startMulti
            ∨ recordRead .multiBlock s = if s.xfer.completed then boolWord s.xfer.multiBlock else 0)
        ∧ (s.xfer.completed = true → recordRead .status s = 0 ∨ recordRead .status s = s.xfer.status)
        ∧ (standard s = true → s.xfer.completed = false →
            recordRead .status s = 0 ∨ recordRead .status s &&& 0x0000003A ≠ 0))

/-! ### The interrupt line -/

/-- 60_exceptions.md R264, R270, R279, 70_reset_and_hazards.md R305, R321, D46: the line reaches the handler where the platform
has routed it and some source is enabled. At a preemption point of SEQ the handler is requested exactly where an enabled flag
is set among those ENV shows and the sticky ones STAR holds; in the handler, and where the line cannot reach it, nothing is
sampled (log 8). Routing takes effect and, with MASKR = 0, keeps the line low. At its return the handler looks at the line
again: after a release the request is what the line then says, and a sticky enabled flag that the handler's dispatch left set,
being no data end and no data error, enters it again (log 21). -/
def Obligations.InterruptLineIsLatched : Prop :=
  ∀ s : State, standard s = true →
    (canInterrupt s = true ↔ s.irq.routed = true ∧ s.regs.maskr ≠ 0)
    ∧ (s.irq.phase = .idle → canInterrupt s = true →
        (point s).regs.star = envValue .flags s ||| (s.regs.star &&& 0x1FE00FFF)
        ∧ ((point s).irq.latched = true ↔ s.irq.latched = true ∨ (point s).regs.star &&& s.regs.maskr ≠ 0))
    ∧ (s.irq.phase ≠ .idle ∨ canInterrupt s = false → point s = s)
    ∧ (∃ t, routeIrq s = .next t ∧ t.irq.routed = true ∧ t.irq.phase = s.irq.phase
        ∧ (s.regs.maskr = 0 → t.irq.latched = s.irq.latched))
    ∧ (s.irq.phase = .release → ∃ t, step s = .next t
        ∧ (t.irq.latched = true ↔ canInterrupt s = true ∧ t.regs.star &&& s.regs.maskr ≠ 0))
    ∧ (s.irq.phase = .dispatch → canInterrupt s = true → readValue .star s &&& 0x0000003A = 0 →
        (readValue .star s).getLsbD 8 = false → readValue .star s &&& 0x1FE00FFF &&& s.regs.maskr ≠ 0 →
        ∃ t, step s = .next t ∧ t.irq.phase = .idle ∧ t.irq.latched = true ∧ t.xfer = s.xfer ∧ t.seq = s.seq
          ∧ (s.xfer.inFlight = true → ∃ u, step t = .next u ∧ u.irq.phase = .dispatch ∧ u.seq = s.seq))
end

