-- ==== Sys2Proof/Laws/State.lean ====
section
/-! SUPPORT. One lemma per field of State per named update (Machine/State.lean), each true by rfl, so that no later proof
unfolds a record update. -/

namespace Sys2Proof.Machine

@[simp] theorem State.setRegs_params (s : State) (v : Regs) : (s.setRegs v).params = s.params := rfl
@[simp] theorem State.setRegs_regs (s : State) (v : Regs) : (s.setRegs v).regs = v := rfl
@[simp] theorem State.setRegs_session (s : State) (v : Regs) : (s.setRegs v).session = s.session := rfl
@[simp] theorem State.setRegs_xfer (s : State) (v : Regs) : (s.setRegs v).xfer = s.xfer := rfl
@[simp] theorem State.setRegs_engine (s : State) (v : Regs) : (s.setRegs v).engine = s.engine := rfl
@[simp] theorem State.setRegs_loop (s : State) (v : Regs) : (s.setRegs v).loop = s.loop := rfl
@[simp] theorem State.setRegs_seq (s : State) (v : Regs) : (s.setRegs v).seq = s.seq := rfl
@[simp] theorem State.setRegs_irq (s : State) (v : Regs) : (s.setRegs v).irq = s.irq := rfl
@[simp] theorem State.setRegs_calls (s : State) (v : Regs) : (s.setRegs v).calls = s.calls := rfl
@[simp] theorem State.setRegs_env (s : State) (v : Regs) : (s.setRegs v).env = s.env := rfl
@[simp] theorem State.setRegs_trace (s : State) (v : Regs) : (s.setRegs v).trace = s.trace := rfl
@[simp] theorem State.setSession_params (s : State) (v : Session) : (s.setSession v).params = s.params := rfl
@[simp] theorem State.setSession_regs (s : State) (v : Session) : (s.setSession v).regs = s.regs := rfl
@[simp] theorem State.setSession_session (s : State) (v : Session) : (s.setSession v).session = v := rfl
@[simp] theorem State.setSession_xfer (s : State) (v : Session) : (s.setSession v).xfer = s.xfer := rfl
@[simp] theorem State.setSession_engine (s : State) (v : Session) : (s.setSession v).engine = s.engine := rfl
@[simp] theorem State.setSession_loop (s : State) (v : Session) : (s.setSession v).loop = s.loop := rfl
@[simp] theorem State.setSession_seq (s : State) (v : Session) : (s.setSession v).seq = s.seq := rfl
@[simp] theorem State.setSession_irq (s : State) (v : Session) : (s.setSession v).irq = s.irq := rfl
@[simp] theorem State.setSession_calls (s : State) (v : Session) : (s.setSession v).calls = s.calls := rfl
@[simp] theorem State.setSession_env (s : State) (v : Session) : (s.setSession v).env = s.env := rfl
@[simp] theorem State.setSession_trace (s : State) (v : Session) : (s.setSession v).trace = s.trace := rfl
@[simp] theorem State.setXfer_params (s : State) (v : Transfer) : (s.setXfer v).params = s.params := rfl
@[simp] theorem State.setXfer_regs (s : State) (v : Transfer) : (s.setXfer v).regs = s.regs := rfl
@[simp] theorem State.setXfer_session (s : State) (v : Transfer) : (s.setXfer v).session = s.session := rfl
@[simp] theorem State.setXfer_xfer (s : State) (v : Transfer) : (s.setXfer v).xfer = v := rfl
@[simp] theorem State.setXfer_engine (s : State) (v : Transfer) : (s.setXfer v).engine = s.engine := rfl
@[simp] theorem State.setXfer_loop (s : State) (v : Transfer) : (s.setXfer v).loop = s.loop := rfl
@[simp] theorem State.setXfer_seq (s : State) (v : Transfer) : (s.setXfer v).seq = s.seq := rfl
@[simp] theorem State.setXfer_irq (s : State) (v : Transfer) : (s.setXfer v).irq = s.irq := rfl
@[simp] theorem State.setXfer_calls (s : State) (v : Transfer) : (s.setXfer v).calls = s.calls := rfl
@[simp] theorem State.setXfer_env (s : State) (v : Transfer) : (s.setXfer v).env = s.env := rfl
@[simp] theorem State.setXfer_trace (s : State) (v : Transfer) : (s.setXfer v).trace = s.trace := rfl
@[simp] theorem State.setEngine_params (s : State) (v : Engine) : (s.setEngine v).params = s.params := rfl
@[simp] theorem State.setEngine_regs (s : State) (v : Engine) : (s.setEngine v).regs = s.regs := rfl
@[simp] theorem State.setEngine_session (s : State) (v : Engine) : (s.setEngine v).session = s.session := rfl
@[simp] theorem State.setEngine_xfer (s : State) (v : Engine) : (s.setEngine v).xfer = s.xfer := rfl
@[simp] theorem State.setEngine_engine (s : State) (v : Engine) : (s.setEngine v).engine = v := rfl
@[simp] theorem State.setEngine_loop (s : State) (v : Engine) : (s.setEngine v).loop = s.loop := rfl
@[simp] theorem State.setEngine_seq (s : State) (v : Engine) : (s.setEngine v).seq = s.seq := rfl
@[simp] theorem State.setEngine_irq (s : State) (v : Engine) : (s.setEngine v).irq = s.irq := rfl
@[simp] theorem State.setEngine_calls (s : State) (v : Engine) : (s.setEngine v).calls = s.calls := rfl
@[simp] theorem State.setEngine_env (s : State) (v : Engine) : (s.setEngine v).env = s.env := rfl
@[simp] theorem State.setEngine_trace (s : State) (v : Engine) : (s.setEngine v).trace = s.trace := rfl
@[simp] theorem State.setLoop_params (s : State) (v : LoopCount) : (s.setLoop v).params = s.params := rfl
@[simp] theorem State.setLoop_regs (s : State) (v : LoopCount) : (s.setLoop v).regs = s.regs := rfl
@[simp] theorem State.setLoop_session (s : State) (v : LoopCount) : (s.setLoop v).session = s.session := rfl
@[simp] theorem State.setLoop_xfer (s : State) (v : LoopCount) : (s.setLoop v).xfer = s.xfer := rfl
@[simp] theorem State.setLoop_engine (s : State) (v : LoopCount) : (s.setLoop v).engine = s.engine := rfl
@[simp] theorem State.setLoop_loop (s : State) (v : LoopCount) : (s.setLoop v).loop = v := rfl
@[simp] theorem State.setLoop_seq (s : State) (v : LoopCount) : (s.setLoop v).seq = s.seq := rfl
@[simp] theorem State.setLoop_irq (s : State) (v : LoopCount) : (s.setLoop v).irq = s.irq := rfl
@[simp] theorem State.setLoop_calls (s : State) (v : LoopCount) : (s.setLoop v).calls = s.calls := rfl
@[simp] theorem State.setLoop_env (s : State) (v : LoopCount) : (s.setLoop v).env = s.env := rfl
@[simp] theorem State.setLoop_trace (s : State) (v : LoopCount) : (s.setLoop v).trace = s.trace := rfl
@[simp] theorem State.setSeq_params (s : State) (v : Seq) : (s.setSeq v).params = s.params := rfl
@[simp] theorem State.setSeq_regs (s : State) (v : Seq) : (s.setSeq v).regs = s.regs := rfl
@[simp] theorem State.setSeq_session (s : State) (v : Seq) : (s.setSeq v).session = s.session := rfl
@[simp] theorem State.setSeq_xfer (s : State) (v : Seq) : (s.setSeq v).xfer = s.xfer := rfl
@[simp] theorem State.setSeq_engine (s : State) (v : Seq) : (s.setSeq v).engine = s.engine := rfl
@[simp] theorem State.setSeq_loop (s : State) (v : Seq) : (s.setSeq v).loop = s.loop := rfl
@[simp] theorem State.setSeq_seq (s : State) (v : Seq) : (s.setSeq v).seq = v := rfl
@[simp] theorem State.setSeq_irq (s : State) (v : Seq) : (s.setSeq v).irq = s.irq := rfl
@[simp] theorem State.setSeq_calls (s : State) (v : Seq) : (s.setSeq v).calls = s.calls := rfl
@[simp] theorem State.setSeq_env (s : State) (v : Seq) : (s.setSeq v).env = s.env := rfl
@[simp] theorem State.setSeq_trace (s : State) (v : Seq) : (s.setSeq v).trace = s.trace := rfl
@[simp] theorem State.setPc_params (s : State) (v : SeqPoint) : (s.setPc v).params = s.params := rfl
@[simp] theorem State.setPc_regs (s : State) (v : SeqPoint) : (s.setPc v).regs = s.regs := rfl
@[simp] theorem State.setPc_session (s : State) (v : SeqPoint) : (s.setPc v).session = s.session := rfl
@[simp] theorem State.setPc_xfer (s : State) (v : SeqPoint) : (s.setPc v).xfer = s.xfer := rfl
@[simp] theorem State.setPc_engine (s : State) (v : SeqPoint) : (s.setPc v).engine = s.engine := rfl
@[simp] theorem State.setPc_loop (s : State) (v : SeqPoint) : (s.setPc v).loop = s.loop := rfl
@[simp] theorem State.setPc_seq (s : State) (v : SeqPoint) : (s.setPc v).seq = { s.seq with pc := v } := rfl
@[simp] theorem State.setPc_irq (s : State) (v : SeqPoint) : (s.setPc v).irq = s.irq := rfl
@[simp] theorem State.setPc_calls (s : State) (v : SeqPoint) : (s.setPc v).calls = s.calls := rfl
@[simp] theorem State.setPc_env (s : State) (v : SeqPoint) : (s.setPc v).env = s.env := rfl
@[simp] theorem State.setPc_trace (s : State) (v : SeqPoint) : (s.setPc v).trace = s.trace := rfl
@[simp] theorem State.setIrq_params (s : State) (v : Irq) : (s.setIrq v).params = s.params := rfl
@[simp] theorem State.setIrq_regs (s : State) (v : Irq) : (s.setIrq v).regs = s.regs := rfl
@[simp] theorem State.setIrq_session (s : State) (v : Irq) : (s.setIrq v).session = s.session := rfl
@[simp] theorem State.setIrq_xfer (s : State) (v : Irq) : (s.setIrq v).xfer = s.xfer := rfl
@[simp] theorem State.setIrq_engine (s : State) (v : Irq) : (s.setIrq v).engine = s.engine := rfl
@[simp] theorem State.setIrq_loop (s : State) (v : Irq) : (s.setIrq v).loop = s.loop := rfl
@[simp] theorem State.setIrq_seq (s : State) (v : Irq) : (s.setIrq v).seq = s.seq := rfl
@[simp] theorem State.setIrq_irq (s : State) (v : Irq) : (s.setIrq v).irq = v := rfl
@[simp] theorem State.setIrq_calls (s : State) (v : Irq) : (s.setIrq v).calls = s.calls := rfl
@[simp] theorem State.setIrq_env (s : State) (v : Irq) : (s.setIrq v).env = s.env := rfl
@[simp] theorem State.setIrq_trace (s : State) (v : Irq) : (s.setIrq v).trace = s.trace := rfl
@[simp] theorem State.setCalls_params (s : State) (v : List HostCall) : (s.setCalls v).params = s.params := rfl
@[simp] theorem State.setCalls_regs (s : State) (v : List HostCall) : (s.setCalls v).regs = s.regs := rfl
@[simp] theorem State.setCalls_session (s : State) (v : List HostCall) : (s.setCalls v).session = s.session := rfl
@[simp] theorem State.setCalls_xfer (s : State) (v : List HostCall) : (s.setCalls v).xfer = s.xfer := rfl
@[simp] theorem State.setCalls_engine (s : State) (v : List HostCall) : (s.setCalls v).engine = s.engine := rfl
@[simp] theorem State.setCalls_loop (s : State) (v : List HostCall) : (s.setCalls v).loop = s.loop := rfl
@[simp] theorem State.setCalls_seq (s : State) (v : List HostCall) : (s.setCalls v).seq = s.seq := rfl
@[simp] theorem State.setCalls_irq (s : State) (v : List HostCall) : (s.setCalls v).irq = s.irq := rfl
@[simp] theorem State.setCalls_calls (s : State) (v : List HostCall) : (s.setCalls v).calls = v := rfl
@[simp] theorem State.setCalls_env (s : State) (v : List HostCall) : (s.setCalls v).env = s.env := rfl
@[simp] theorem State.setCalls_trace (s : State) (v : List HostCall) : (s.setCalls v).trace = s.trace := rfl
@[simp] theorem State.setEnv_params (s : State) (v : Env) : (s.setEnv v).params = s.params := rfl
@[simp] theorem State.setEnv_regs (s : State) (v : Env) : (s.setEnv v).regs = s.regs := rfl
@[simp] theorem State.setEnv_session (s : State) (v : Env) : (s.setEnv v).session = s.session := rfl
@[simp] theorem State.setEnv_xfer (s : State) (v : Env) : (s.setEnv v).xfer = s.xfer := rfl
@[simp] theorem State.setEnv_engine (s : State) (v : Env) : (s.setEnv v).engine = s.engine := rfl
@[simp] theorem State.setEnv_loop (s : State) (v : Env) : (s.setEnv v).loop = s.loop := rfl
@[simp] theorem State.setEnv_seq (s : State) (v : Env) : (s.setEnv v).seq = s.seq := rfl
@[simp] theorem State.setEnv_irq (s : State) (v : Env) : (s.setEnv v).irq = s.irq := rfl
@[simp] theorem State.setEnv_calls (s : State) (v : Env) : (s.setEnv v).calls = s.calls := rfl
@[simp] theorem State.setEnv_env (s : State) (v : Env) : (s.setEnv v).env = v := rfl
@[simp] theorem State.setEnv_trace (s : State) (v : Env) : (s.setEnv v).trace = s.trace := rfl
@[simp] theorem State.emit_params (s : State) (v : Event) : (s.emit v).params = s.params := rfl
@[simp] theorem State.emit_regs (s : State) (v : Event) : (s.emit v).regs = s.regs := rfl
@[simp] theorem State.emit_session (s : State) (v : Event) : (s.emit v).session = s.session := rfl
@[simp] theorem State.emit_xfer (s : State) (v : Event) : (s.emit v).xfer = s.xfer := rfl
@[simp] theorem State.emit_engine (s : State) (v : Event) : (s.emit v).engine = s.engine := rfl
@[simp] theorem State.emit_loop (s : State) (v : Event) : (s.emit v).loop = s.loop := rfl
@[simp] theorem State.emit_seq (s : State) (v : Event) : (s.emit v).seq = s.seq := rfl
@[simp] theorem State.emit_irq (s : State) (v : Event) : (s.emit v).irq = s.irq := rfl
@[simp] theorem State.emit_calls (s : State) (v : Event) : (s.emit v).calls = s.calls := rfl
@[simp] theorem State.emit_env (s : State) (v : Event) : (s.emit v).env = s.env := rfl
@[simp] theorem State.emit_trace (s : State) (v : Event) : (s.emit v).trace = v :: s.trace := rfl

end Sys2Proof.Machine
end

