-- ==== Sys2Proof/Laws/Ops.lean ====
section
/-! SUPPORT. What each shared operation can do, said once: the fields it leaves alone (simp lemmas) and the registers it
sets. -/

namespace Sys2Proof.Machine

/-! ### Results -/

@[simp] theorem andThen_next (s : State) (f : State → StepResult) : andThen (.next s) f = f s := rfl
@[simp] theorem andThen_fault (e : Fault) (f : State → StepResult) : andThen (.fault e) f = .fault e := rfl
@[simp] theorem andThen_refused (e : Refusal) (f : State → StepResult) : andThen (.refused e) f = .refused e := rfl
@[simp] theorem onNext_next (s : State) (f : State → State) : onNext (.next s) f = .next (f s) := rfl
@[simp] theorem onNext_fault (e : Fault) (f : State → State) : onNext (.fault e) f = .fault e := rfl
@[simp] theorem onNext_refused (e : Refusal) (f : State → State) : onNext (.refused e) f = .refused e := rfl

/-- A sequenced result is a next state only if both parts are. -/
theorem andThen_eq_next {r : StepResult} {f : State → StepResult} {t : State} (h : andThen r f = .next t) :
    ∃ s, r = .next s ∧ f s = .next t := by
  cases r with
  | next s => exact ⟨s, rfl, h⟩
  | fault e => cases h
  | refused e => cases h

/-- A changed result is a next state only if the first is. -/
theorem onNext_eq_next {r : StepResult} {f : State → State} {t : State} (h : onNext r f = .next t) :
    ∃ s, r = .next s ∧ f s = t := by
  cases r with
  | next s => exact ⟨s, rfl, by simpa using h⟩
  | fault e => cases h
  | refused e => cases h

/-- A step of SEQ that gives a next state gives the one its action gives. -/
theorem seqCommit_eq_next {s t : State} {r : StepResult} (h : seqCommit s r = .next t) : r = .next t := by
  obtain ⟨u, rfl, hu⟩ := andThen_eq_next h
  split at hu
  · cases hu
  · exact hu

/-- Where the line cannot reach the handler a step of SEQ is its action. -/
theorem seqCommit_quiet {s : State} (r : StepResult) (h : canInterrupt s = false) : seqCommit s r = r := by
  cases r <;> simp [seqCommit, h]

/-- A record write that gives a next state has written the field and passed a preemption point. -/
theorem recordWrite_eq_next {f : Transfer → Transfer} {s t : State} (h : recordWrite f s = .next t) :
    t = point (s.setXfer (f s.xfer)) := by
  simpa using (seqCommit_eq_next h).symm

/-- Where the line cannot reach the handler a record write is the write alone. -/
theorem recordWrite_quiet {f : Transfer → Transfer} {s : State} (h : canInterrupt s = false) :
    recordWrite f s = .next (s.setXfer (f s.xfer)) := by
  have hp : point (s.setXfer (f s.xfer)) = s.setXfer (f s.xfer) := by
    have : canInterrupt (s.setXfer (f s.xfer)) = false := h
    simp [point, this]
  rw [recordWrite, seqCommit_quiet _ h, hp]

/-- A session read that gives a next state read a written register. -/
theorem withSession_eq_next {α : Type} {f : SessReg} {v : Option α} {k : α → StepResult} {t : State}
    (h : withSession f v k = .next t) : ∃ a, v = some a ∧ k a = .next t := by
  cases v with
  | none => cases h
  | some a => exact ⟨a, rfl, h⟩

/-! ### ENV's answers -/

/-- A script whose first entry is for the port answers with it. -/
@[simp] theorem envTake_head (p : EnvPort) (w : Word) (t : List (EnvPort × Word)) :
    envTake p ((p, w) :: t) = some (w, t) := by simp [envTake]

/-- Taking an answer shortens the script by one. -/
theorem envTake_length {p : EnvPort} {l rest : List (EnvPort × Word)} {w : Word} (h : envTake p l = some (w, rest)) :
    rest.length + 1 = l.length := by
  induction l generalizing rest with
  | nil => cases h
  | cons e t ih =>
    obtain ⟨q, v⟩ := e
    by_cases hq : q = p
    · simp only [envTake, hq, if_true, Option.some.injEq, Prod.mk.injEq] at h
      simp [h.2]
    · simp only [envTake, hq, if_false] at h
      cases ht : envTake p t with
      | none => simp [ht] at h
      | some r =>
        simp only [ht, Option.some.injEq, Prod.mk.injEq] at h
        have := ih (rest := r.2) (by rw [ht, ← h.1])
        simp [← h.2, this]

/-! ### The default layout: the masks of 10_state.md R51 to R63 as the spec writes them -/

@[simp] theorem cmdFields_standard : cmdFields standardLayout = 0x00011F3F := by decide
@[simp] theorem cmdTrans_standard : cmdTrans standardLayout = 0x00000040 := by decide
@[simp] theorem clkcrFields_standard : clkcrFields standardLayout = 0x0003D3FF := by decide
@[simp] theorem pwrCtrl_standard : pwrCtrl standardLayout = 0x00000003 := by decide
@[simp] theorem cmdFlags_standard : cmdFlags standardLayout = 0x002000C5 := by decide
@[simp] theorem dataFlags_standard : dataFlags standardLayout = 0x18000F3A := by decide
@[simp] theorem dataIrq_standard : dataIrq standardLayout = 0x0000C13A := by decide
@[simp] theorem termFlags_standard : termFlags standardLayout = 0x00200045 := by decide
@[simp] theorem dataTermFlags_standard : dataTermFlags standardLayout = 0x0000012A := by decide
@[simp] theorem dataErrFlags_standard : dataErrFlags standardLayout = 0x0000003A := by decide
@[simp] theorem stickyFlags_standard : stickyFlags standardLayout = 0x1FE00FFF := rfl

/-- What `standard` says, for rewriting. -/
theorem layout_of_standard {s : State} (h : standard s = true) : s.params.layout = standardLayout := by
  simpa [standard] using h

/-! ### Registers -/

@[simp] theorem Regs.get_set_same (g : Regs) (r : Reg) (v : Word) : (g.set r v).get r = v := by cases r <;> rfl
theorem Regs.get_set_ne (g : Regs) {r q : Reg} (v : Word) (h : q ≠ r) : (g.set r v).get q = g.get q := by
  cases r <;> cases q <;> first | rfl | exact absurd rfl h

/-! ### Frames: the fields each operation leaves alone -/

@[simp] theorem envNext_params (p : EnvPort) (s : State) : (envNext p s).params = s.params := by unfold envNext; split <;> rfl
@[simp] theorem envNext_regs (p : EnvPort) (s : State) : (envNext p s).regs = s.regs := by unfold envNext; split <;> rfl
@[simp] theorem envNext_session (p : EnvPort) (s : State) : (envNext p s).session = s.session := by unfold envNext; split <;> rfl
@[simp] theorem envNext_xfer (p : EnvPort) (s : State) : (envNext p s).xfer = s.xfer := by unfold envNext; split <;> rfl
@[simp] theorem envNext_engine (p : EnvPort) (s : State) : (envNext p s).engine = s.engine := by unfold envNext; split <;> rfl
@[simp] theorem envNext_loop (p : EnvPort) (s : State) : (envNext p s).loop = s.loop := by unfold envNext; split <;> rfl
@[simp] theorem envNext_seq (p : EnvPort) (s : State) : (envNext p s).seq = s.seq := by unfold envNext; split <;> rfl
@[simp] theorem envNext_irq (p : EnvPort) (s : State) : (envNext p s).irq = s.irq := by unfold envNext; split <;> rfl
@[simp] theorem envNext_calls (p : EnvPort) (s : State) : (envNext p s).calls = s.calls := by unfold envNext; split <;> rfl
@[simp] theorem envNext_trace (p : EnvPort) (s : State) : (envNext p s).trace = s.trace := by unfold envNext; split <;> rfl

@[simp] theorem point_params (s : State) : (point s).params = s.params := by simp only [point]; split <;> simp
@[simp] theorem point_session (s : State) : (point s).session = s.session := by simp only [point]; split <;> simp
@[simp] theorem point_xfer (s : State) : (point s).xfer = s.xfer := by simp only [point]; split <;> simp
@[simp] theorem point_engine (s : State) : (point s).engine = s.engine := by simp only [point]; split <;> simp
@[simp] theorem point_loop (s : State) : (point s).loop = s.loop := by simp only [point]; split <;> simp
@[simp] theorem point_seq (s : State) : (point s).seq = s.seq := by simp only [point]; split <;> simp
@[simp] theorem point_calls (s : State) : (point s).calls = s.calls := by simp only [point]; split <;> simp
@[simp] theorem point_trace (s : State) : (point s).trace = s.trace := by simp only [point]; split <;> simp

/-- A preemption point changes ENV's part, the flags ENV shows, and the latch. -/
theorem point_regs (s : State) : ∃ w, (point s).regs = s.regs.set .star w := by
  simp only [point]; split
  · exact ⟨starShown (envValue .flags s) s, by simp [Regs.set]⟩
  · exact ⟨s.regs.star, rfl⟩
theorem point_irq (s : State) : ∃ b, (point s).irq = { s.irq with latched := b } := by
  simp only [point]; split
  · exact ⟨s.irq.latched || lineRaised s.regs.maskr (starShown (envValue .flags s) s), by simp⟩
  · exact ⟨s.irq.latched, rfl⟩
/-- Where the line cannot reach the handler, and in the handler, a preemption point does nothing. -/
theorem point_of_quiet {s : State} (h : (seqRuns s && canInterrupt s) = false) : point s = s := by simp [point, h]

@[simp] theorem point_power (s : State) : (point s).regs.power = s.regs.power := by obtain ⟨w, h⟩ := point_regs s; rw [h]; rfl
@[simp] theorem point_clkcr (s : State) : (point s).regs.clkcr = s.regs.clkcr := by obtain ⟨w, h⟩ := point_regs s; rw [h]; rfl
@[simp] theorem point_argr (s : State) : (point s).regs.argr = s.regs.argr := by obtain ⟨w, h⟩ := point_regs s; rw [h]; rfl
@[simp] theorem point_cmdr (s : State) : (point s).regs.cmdr = s.regs.cmdr := by obtain ⟨w, h⟩ := point_regs s; rw [h]; rfl
@[simp] theorem point_respcmdr (s : State) : (point s).regs.respcmdr = s.regs.respcmdr := by obtain ⟨w, h⟩ := point_regs s; rw [h]; rfl
@[simp] theorem point_resp1 (s : State) : (point s).regs.resp1 = s.regs.resp1 := by obtain ⟨w, h⟩ := point_regs s; rw [h]; rfl
@[simp] theorem point_resp2 (s : State) : (point s).regs.resp2 = s.regs.resp2 := by obtain ⟨w, h⟩ := point_regs s; rw [h]; rfl
@[simp] theorem point_resp3 (s : State) : (point s).regs.resp3 = s.regs.resp3 := by obtain ⟨w, h⟩ := point_regs s; rw [h]; rfl
@[simp] theorem point_resp4 (s : State) : (point s).regs.resp4 = s.regs.resp4 := by obtain ⟨w, h⟩ := point_regs s; rw [h]; rfl
@[simp] theorem point_dtimer (s : State) : (point s).regs.dtimer = s.regs.dtimer := by obtain ⟨w, h⟩ := point_regs s; rw [h]; rfl
@[simp] theorem point_dlenr (s : State) : (point s).regs.dlenr = s.regs.dlenr := by obtain ⟨w, h⟩ := point_regs s; rw [h]; rfl
@[simp] theorem point_dctrl (s : State) : (point s).regs.dctrl = s.regs.dctrl := by obtain ⟨w, h⟩ := point_regs s; rw [h]; rfl
@[simp] theorem point_icr (s : State) : (point s).regs.icr = s.regs.icr := by obtain ⟨w, h⟩ := point_regs s; rw [h]; rfl
@[simp] theorem point_maskr (s : State) : (point s).regs.maskr = s.regs.maskr := by obtain ⟨w, h⟩ := point_regs s; rw [h]; rfl
@[simp] theorem point_idmactrlr (s : State) : (point s).regs.idmactrlr = s.regs.idmactrlr := by obtain ⟨w, h⟩ := point_regs s; rw [h]; rfl
@[simp] theorem point_fifor (s : State) : (point s).regs.fifor = s.regs.fifor := by obtain ⟨w, h⟩ := point_regs s; rw [h]; rfl
@[simp] theorem point_routed (s : State) : (point s).irq.routed = s.irq.routed := by obtain ⟨b, h⟩ := point_irq s; rw [h]
@[simp] theorem point_phase (s : State) : (point s).irq.phase = s.irq.phase := by obtain ⟨b, h⟩ := point_irq s; rw [h]

@[simp] theorem readNext_params (r : Reg) (s : State) : (readNext r s).params = s.params := by simp only [readNext]; split <;> simp
@[simp] theorem readNext_session (r : Reg) (s : State) : (readNext r s).session = s.session := by simp only [readNext]; split <;> simp
@[simp] theorem readNext_xfer (r : Reg) (s : State) : (readNext r s).xfer = s.xfer := by simp only [readNext]; split <;> simp
@[simp] theorem readNext_engine (r : Reg) (s : State) : (readNext r s).engine = s.engine := by simp only [readNext]; split <;> simp
@[simp] theorem readNext_loop (r : Reg) (s : State) : (readNext r s).loop = s.loop := by simp only [readNext]; split <;> simp
@[simp] theorem readNext_seq (r : Reg) (s : State) : (readNext r s).seq = s.seq := by simp only [readNext]; split <;> simp
@[simp] theorem readNext_calls (r : Reg) (s : State) : (readNext r s).calls = s.calls := by simp only [readNext]; split <;> simp
@[simp] theorem readNext_trace (r : Reg) (s : State) : (readNext r s).trace = .read r (readValue r s) :: s.trace := by
  simp only [readNext]; split <;> simp
@[simp] theorem readNext_routed (r : Reg) (s : State) : (readNext r s).irq.routed = s.irq.routed := by
  simp only [readNext]; split <;> simp
@[simp] theorem readNext_phase (r : Reg) (s : State) : (readNext r s).irq.phase = s.irq.phase := by
  simp only [readNext]; split <;> simp

/-- A register read leaves every register but the one read and STAR as it was; a register ENV answers holds the answer,
unless it is STAR and ENV has shown new flags since. -/
theorem readNext_get (r q : Reg) (s : State) (hq : q ≠ .star) :
    (readNext r s).regs.get q = if q = r ∧ r.port.isSome then readValue r s else s.regs.get q := by
  have key : ∀ u : State, (point u).regs.get q = u.regs.get q := by
    intro u
    obtain ⟨w, h⟩ := point_regs u
    rw [h]
    cases q <;> first | rfl | exact absurd rfl hq
  simp only [readNext, key, State.emit_regs]
  cases hp : r.port with
  | none => simp
  | some p =>
    by_cases hqr : q = r
    · subst hqr; simp
    · simp [hqr, Regs.get_set_ne]

/-- A whole write stores, and then ENV may show new flags. -/
theorem writeReg_regs (r : Reg) (v : Word) (s : State) :
    ∃ w, (writeReg r v s).regs = (s.regs.store s.params.layout r v).set .star w :=
  point_regs ((s.setRegs (s.regs.store s.params.layout r v)).emit (.write r v))

@[simp] theorem writeReg_params (r : Reg) (v : Word) (s : State) : (writeReg r v s).params = s.params := by simp [writeReg]
@[simp] theorem writeReg_session (r : Reg) (v : Word) (s : State) : (writeReg r v s).session = s.session := by simp [writeReg]
@[simp] theorem writeReg_xfer (r : Reg) (v : Word) (s : State) : (writeReg r v s).xfer = s.xfer := by simp [writeReg]
@[simp] theorem writeReg_engine (r : Reg) (v : Word) (s : State) : (writeReg r v s).engine = s.engine := by simp [writeReg]
@[simp] theorem writeReg_loop (r : Reg) (v : Word) (s : State) : (writeReg r v s).loop = s.loop := by simp [writeReg]
@[simp] theorem writeReg_seq (r : Reg) (v : Word) (s : State) : (writeReg r v s).seq = s.seq := by simp [writeReg]
@[simp] theorem writeReg_calls (r : Reg) (v : Word) (s : State) : (writeReg r v s).calls = s.calls := by simp [writeReg]
@[simp] theorem writeReg_trace (r : Reg) (v : Word) (s : State) : (writeReg r v s).trace = .write r v :: s.trace := by
  simp [writeReg]
@[simp] theorem writeReg_routed (r : Reg) (v : Word) (s : State) : (writeReg r v s).irq.routed = s.irq.routed := by
  simp [writeReg]
@[simp] theorem writeReg_phase (r : Reg) (v : Word) (s : State) : (writeReg r v s).irq.phase = s.irq.phase := by
  simp [writeReg]

/-- A read-modify-write of a register that ENV does not answer replaces the masked bits, and then ENV may show new flags. -/
theorem rmw_regs {r : Reg} (hp : r.port = none) (mask v : Word) (s : State) :
    ∃ w, (rmw r mask v s).regs = (s.regs.set r (rmwWord (s.regs.get r) mask v)).set .star w := by
  obtain ⟨w2, h2⟩ : ∃ w2, (readNext r s).regs = s.regs.set .star w2 := by
    simpa [readNext, hp] using point_regs (s.emit (.read r (readValue r s)))
  obtain ⟨w, h⟩ := point_regs (((readNext r s).setRegs
    ((readNext r s).regs.set r (rmwWord ((readNext r s).regs.get r) mask v))).emit
      (.write r (rmwWord ((readNext r s).regs.get r) mask v)))
  refine ⟨w, h.trans ?_⟩
  simp only [State.emit_regs, State.setRegs_regs, h2]
  cases r <;> rfl

@[simp] theorem rmw_params (r : Reg) (mask v : Word) (s : State) : (rmw r mask v s).params = s.params := by simp [rmw]
@[simp] theorem rmw_session (r : Reg) (mask v : Word) (s : State) : (rmw r mask v s).session = s.session := by simp [rmw]
@[simp] theorem rmw_xfer (r : Reg) (mask v : Word) (s : State) : (rmw r mask v s).xfer = s.xfer := by simp [rmw]
@[simp] theorem rmw_engine (r : Reg) (mask v : Word) (s : State) : (rmw r mask v s).engine = s.engine := by simp [rmw]
@[simp] theorem rmw_loop (r : Reg) (mask v : Word) (s : State) : (rmw r mask v s).loop = s.loop := by simp [rmw]
@[simp] theorem rmw_seq (r : Reg) (mask v : Word) (s : State) : (rmw r mask v s).seq = s.seq := by simp [rmw]
@[simp] theorem rmw_calls (r : Reg) (mask v : Word) (s : State) : (rmw r mask v s).calls = s.calls := by simp [rmw]
@[simp] theorem rmw_routed (r : Reg) (mask v : Word) (s : State) : (rmw r mask v s).irq.routed = s.irq.routed := by
  simp [rmw]
@[simp] theorem rmw_phase (r : Reg) (mask v : Word) (s : State) : (rmw r mask v s).irq.phase = s.irq.phase := by
  simp [rmw]
/-- A read-modify-write is two accesses: the read, then the write. -/
theorem rmw_trace {r : Reg} (hp : r.port = none) (mask v : Word) (s : State) :
    (rmw r mask v s).trace =
      .write r (rmwWord (s.regs.get r) mask v) :: .read r (s.regs.get r &&& s.params.layout.rw.get r) :: s.trace := by
  have hr : r ≠ .star := by rintro rfl; cases hp
  simp [rmw, readNext_get r r s hr, hp, readValue]

/-! ### The engine -/

@[simp] theorem send_params (row : Row) (arg : Word) (s : State) : (send row arg s).params = s.params := by simp [send]
@[simp] theorem send_session (row : Row) (arg : Word) (s : State) : (send row arg s).session = s.session := by simp [send]
@[simp] theorem send_xfer (row : Row) (arg : Word) (s : State) : (send row arg s).xfer = s.xfer := by simp [send]
@[simp] theorem send_engine (row : Row) (arg : Word) (s : State) : (send row arg s).engine = s.engine := by simp [send]
@[simp] theorem send_loop (row : Row) (arg : Word) (s : State) : (send row arg s).loop = s.loop := by simp [send]
@[simp] theorem send_seq (row : Row) (arg : Word) (s : State) : (send row arg s).seq = s.seq := by simp [send]
@[simp] theorem send_calls (row : Row) (arg : Word) (s : State) : (send row arg s).calls = s.calls := by simp [send]
@[simp] theorem send_routed (row : Row) (arg : Word) (s : State) : (send row arg s).irq.routed = s.irq.routed := by simp [send]
@[simp] theorem send_phase (row : Row) (arg : Word) (s : State) : (send row arg s).irq.phase = s.irq.phase := by simp [send]

@[simp] theorem pollNext_params (s : State) : (pollNext s).params = s.params := by simp [pollNext]
@[simp] theorem pollNext_xfer (s : State) : (pollNext s).xfer = s.xfer := by simp [pollNext]
@[simp] theorem pollNext_engine (s : State) : (pollNext s).engine = s.engine := by simp [pollNext]
@[simp] theorem pollNext_loop (s : State) :
    (pollNext s).loop = { s.loop with k := some (nextIteration s.loop.k) } := by simp [pollNext]
@[simp] theorem pollNext_seq (s : State) : (pollNext s).seq = s.seq := by simp [pollNext]
@[simp] theorem pollNext_calls (s : State) : (pollNext s).calls = s.calls := by simp [pollNext]
@[simp] theorem pollNext_session (s : State) :
    (pollNext s).session = { s.session with lastStatus := some (readValue .star s) } := by simp [pollNext]
@[simp] theorem pollNext_trace (s : State) : (pollNext s).trace = .read .star (readValue .star s) :: s.trace := by simp [pollNext]
@[simp] theorem pollNext_routed (s : State) : (pollNext s).irq.routed = s.irq.routed := by simp [pollNext]
@[simp] theorem pollNext_phase (s : State) : (pollNext s).irq.phase = s.irq.phase := by simp [pollNext]
@[simp] theorem pollNext_get (q : Reg) (s : State) (hq : q ≠ .star) : (pollNext s).regs.get q = s.regs.get q := by
  simp [pollNext, readNext_get .star q s hq, hq]

@[simp] theorem leaveLoop_params (flags : Word) (s : State) : (leaveLoop flags s).params = s.params := by simp [leaveLoop]
@[simp] theorem leaveLoop_session (flags : Word) (s : State) : (leaveLoop flags s).session = s.session := by simp [leaveLoop]
@[simp] theorem leaveLoop_xfer (flags : Word) (s : State) : (leaveLoop flags s).xfer = s.xfer := by simp [leaveLoop]
@[simp] theorem leaveLoop_engine (flags : Word) (s : State) : (leaveLoop flags s).engine = s.engine := by simp [leaveLoop]
@[simp] theorem leaveLoop_loop (flags : Word) (s : State) : (leaveLoop flags s).loop = LoopCount.idle := by simp [leaveLoop]
@[simp] theorem leaveLoop_seq (flags : Word) (s : State) : (leaveLoop flags s).seq = s.seq := by simp [leaveLoop]
@[simp] theorem leaveLoop_calls (flags : Word) (s : State) : (leaveLoop flags s).calls = s.calls := by simp [leaveLoop]
@[simp] theorem leaveLoop_trace (flags : Word) (s : State) : (leaveLoop flags s).trace = .write .icr flags :: s.trace := by simp [leaveLoop]
@[simp] theorem leaveLoop_routed (flags : Word) (s : State) : (leaveLoop flags s).irq.routed = s.irq.routed := by
  simp [leaveLoop]
@[simp] theorem leaveLoop_phase (flags : Word) (s : State) : (leaveLoop flags s).irq.phase = s.irq.phase := by
  simp [leaveLoop]
/-- Leaving an operation is the write of ICR and nothing else of the registers. -/
theorem leaveLoop_regs (flags : Word) (s : State) : (leaveLoop flags s).regs = (writeReg .icr flags s).regs := rfl

/-- What a property of a poll loop's end needs: it holds at the start and every poll keeps it. -/
theorem poll_induct {P : State → Prop} (stop : Word → Bool) (hstep : ∀ s, P s → P (pollNext s)) (n : Nat) (s : State)
    (h : P s) : P (poll stop n s).2 := by
  induction n generalizing s with
  | zero => exact h
  | succ n ih =>
    simp only [poll]
    split
    · exact hstep s h
    · exact ih _ (hstep s h)

/-- A loop that stops on poll number `k` of its budget has made `k + 1` polls. -/
theorem poll_stops {stop : Word → Bool} (k n : Nat) (s : State) (hk : k < n)
    (hbefore : ∀ j < k, stop (pollWord j s) = false) (hat : stop (pollWord k s) = true) :
    poll stop n s = (some (pollWord k s), pollAfter (k + 1) s) := by
  induction k generalizing n s with
  | zero =>
    obtain ⟨m, rfl⟩ : ∃ m, n = m + 1 := ⟨n - 1, by omega⟩
    simp only [pollWord, pollAfter] at hat
    simp [poll, hat, pollWord, pollAfter]
  | succ k ih =>
    obtain ⟨m, rfl⟩ : ∃ m, n = m + 1 := ⟨n - 1, by omega⟩
    have h0 : stop (readValue .star s) = false := hbefore 0 (by omega)
    simp only [poll, h0, Bool.false_eq_true, if_false]
    exact ih m (pollNext s) (by omega) (fun j hj => hbefore (j + 1) (by omega)) hat

/-- A loop that no poll of its budget stops has made all its polls. -/
theorem poll_exhausts {stop : Word → Bool} (n : Nat) (s : State) (h : ∀ j < n, stop (pollWord j s) = false) :
    poll stop n s = (none, pollAfter n s) := by
  induction n generalizing s with
  | zero => rfl
  | succ n ih =>
    have h0 : stop (readValue .star s) = false := h 0 (by omega)
    simp only [poll, h0, Bool.false_eq_true, if_false]
    exact ih (pollNext s) fun j hj => h (j + 1) (by omega)

/-- A word may be issued: its state is `command`'s. -/
theorem issue_of_free {s : State} (row : Row) (arg : Word) (n : Nat) (h : engineBusy s = false) :
    issue row arg n s = .next (command row arg n s) := by simp [issue, h]

/-- A word that gives a next state was issued. -/
theorem issue_eq_next {s t : State} {row : Row} {arg : Word} {n : Nat} (h : issue row arg n s = .next t) :
    engineBusy s = false ∧ t = command row arg n s := by
  unfold issue at h
  split at h
  · cases h
  · rename_i hb
    exact ⟨by simpa using hb, by simpa using h.symm⟩

end Sys2Proof.Machine
end

