-- ==== Sys2Proof/Laws/Engine.lean ====
section
/-! SUPPORT. What the engine's operations keep and what they do (40_engine.md R140 to R149), said once for all rows. -/

namespace Sys2Proof.Machine

/-- What an operation of the engine keeps: everything of SEQ, IRQ but the latched line, HOST, the record, the slot and the
prefix bit, every session register but `last_status`, and every register outside the list `touched`. -/
structure Kept (touched : List Reg) (s t : State) : Prop where
  params : t.params = s.params
  xfer : t.xfer = s.xfer
  seq : t.seq = s.seq
  calls : t.calls = s.calls
  routed : t.irq.routed = s.irq.routed
  phase : t.irq.phase = s.irq.phase
  slot : t.engine.slot = s.engine.slot
  appPending : t.engine.appPending = s.engine.appPending
  session : t.session = { s.session with lastStatus := t.session.lastStatus }
  regs : ∀ q, q ∉ touched → t.regs.get q = s.regs.get q

theorem Kept.refl (l : List Reg) (s : State) : Kept l s s :=
  ⟨rfl, rfl, rfl, rfl, rfl, rfl, rfl, rfl, rfl, fun _ _ => rfl⟩

theorem Kept.trans {l : List Reg} {s t u : State} (h : Kept l s t) (k : Kept l t u) : Kept l s u where
  params := k.params.trans h.params
  xfer := k.xfer.trans h.xfer
  seq := k.seq.trans h.seq
  calls := k.calls.trans h.calls
  routed := k.routed.trans h.routed
  phase := k.phase.trans h.phase
  slot := k.slot.trans h.slot
  appPending := k.appPending.trans h.appPending
  session := by rw [k.session, h.session]
  regs := fun q hq => (k.regs q hq).trans (h.regs q hq)

/-- Fewer registers touched is a stronger frame. -/
theorem Kept.mono {l l' : List Reg} {s t : State} (h : Kept l s t) (hl : ∀ q ∈ l, q ∈ l') : Kept l' s t :=
  { h with regs := fun q hq => h.regs q fun hm => hq (hl q hm) }

/-- A whole write keeps everything but its register and STAR. -/
theorem writeReg_kept (r : Reg) (v : Word) (s : State) : Kept [r, .star] s (writeReg r v s) where
  params := by simp
  xfer := by simp
  seq := by simp
  calls := by simp
  routed := by simp
  phase := by simp
  slot := by simp
  appPending := by simp
  session := by simp
  regs := by
    intro q hq
    simp only [List.mem_cons, List.not_mem_nil, or_false, not_or] at hq
    obtain ⟨w, h⟩ := writeReg_regs r v s
    rw [h, Regs.get_set_ne _ _ hq.2, Regs.store]
    split
    · rfl
    · split
      · rename_i hr
        subst hr
        cases q <;> first | rfl | exact absurd rfl hq.1 | exact absurd rfl hq.2
      · exact Regs.get_set_ne _ _ hq.1

/-- A register read keeps everything but its register and STAR. -/
theorem readNext_kept (r : Reg) (s : State) : Kept [r, .star] s (readNext r s) where
  params := by simp
  xfer := by simp
  seq := by simp
  calls := by simp
  routed := by simp
  phase := by simp
  slot := by simp
  appPending := by simp
  session := by simp
  regs := by
    intro q hq
    simp only [List.mem_cons, List.not_mem_nil, or_false, not_or] at hq
    rw [readNext_get r q s hq.2]
    simp [hq.1]

/-- Leaving an operation keeps everything but ICR and STAR. -/
theorem leaveLoop_kept (flags : Word) (s : State) : Kept [.icr, .star] s (leaveLoop flags s) :=
  { writeReg_kept .icr flags s with }

/-- A read-modify-write keeps everything but its register and STAR. -/
theorem rmw_kept {r : Reg} (hp : r.port = none) (mask v : Word) (s : State) : Kept [r, .star] s (rmw r mask v s) where
  params := by simp
  xfer := by simp
  seq := by simp
  calls := by simp
  routed := by simp
  phase := by simp
  slot := by simp
  appPending := by simp
  session := by simp
  regs := by
    intro q hq
    simp only [List.mem_cons, List.not_mem_nil, or_false, not_or] at hq
    obtain ⟨w, h⟩ := rmw_regs hp mask v s
    rw [h, Regs.get_set_ne _ _ hq.2, Regs.get_set_ne _ _ hq.1]

/-- A poll keeps everything but STAR. -/
theorem pollNext_kept (s : State) : Kept [.star] s (pollNext s) where
  params := by simp
  xfer := by simp
  seq := by simp
  calls := by simp
  routed := by simp
  phase := by simp
  slot := by simp
  appPending := by simp
  session := by simp
  regs := by
    intro q hq
    simp only [List.mem_cons, List.not_mem_nil, or_false] at hq
    simp [hq]

/-- Polls keep everything but STAR. -/
theorem poll_kept (stop : Word → Bool) (n : Nat) (s : State) : Kept [.star] s (poll stop n s).2 :=
  poll_induct (P := fun u => Kept [.star] s u) stop (fun u h => h.trans (pollNext_kept u)) n s (Kept.refl _ s)

/-- A wait is a loop of polls and then the one write of ICR. -/
theorem awaitSent_state (n : Nat) (s : State) :
    (awaitSent n s).2 = leaveLoop (cmdFlags s.params.layout) (poll (sentSeen s.params.layout) n s).2 := rfl
theorem awaitResponse_state (n : Nat) (s : State) :
    (awaitResponse n s).2 = leaveLoop (cmdFlags s.params.layout) (poll (responseSeen s.params.layout) n s).2 := rfl

/-- The wait of a row ends with the write of ICR after polls. -/
theorem awaitRow_state (row : Row) (n : Nat) (s : State) :
    ∃ stop m, (awaitRow row n s).2 = leaveLoop (cmdFlags s.params.layout) (poll stop m s).2 := by
  unfold awaitRow
  split
  · exact ⟨_, _, awaitSent_state _ _⟩
  · exact ⟨_, _, awaitResponse_state _ _⟩
  · exact ⟨_, _, awaitResponse_state _ _⟩

/-- A wait keeps everything but ICR and STAR. -/
theorem awaitRow_kept (row : Row) (n : Nat) (s : State) : Kept [.icr, .star] s (awaitRow row n s).2 := by
  obtain ⟨stop, m, h⟩ := awaitRow_state row n s
  rw [h]
  exact ((poll_kept stop m s).mono (by simp)).trans (leaveLoop_kept _ _)

/-- `send` keeps everything but ARGR, CMDR and STAR. -/
theorem send_kept (row : Row) (arg : Word) (s : State) : Kept [.argr, .cmdr, .star] s (send row arg s) :=
  ((writeReg_kept .argr arg s).mono (by simp)).trans ((rmw_kept rfl _ _ _).mono (by simp))

/-- `send` leaves the argument in ARGR. -/
theorem send_argr (row : Row) (arg : Word) (s : State) :
    (send row arg s).regs.argr = arg &&& s.params.layout.rw.argr := by
  have h := (rmw_kept (r := .cmdr) rfl (cmdFields s.params.layout) (cmdw s.params.layout row.index row.kind) (writeReg .argr arg s)).regs .argr (by simp)
  obtain ⟨w, hw⟩ := writeReg_regs .argr arg s
  have : (send row arg s).regs.argr = (writeReg .argr arg s).regs.argr := h
  rw [this, hw]
  rfl

/-- `send` replaces the masked fields of CMDR by the word's. -/
theorem send_cmdr (row : Row) (arg : Word) (s : State) :
    (send row arg s).regs.cmdr = rmwWord s.regs.cmdr (cmdFields s.params.layout) (cmdw s.params.layout row.index row.kind) := by
  obtain ⟨w, hw⟩ := rmw_regs (r := .cmdr) rfl (cmdFields s.params.layout) (cmdw s.params.layout row.index row.kind) (writeReg .argr arg s)
  have hc : (writeReg .argr arg s).regs.cmdr = s.regs.cmdr := (writeReg_kept .argr arg s).regs .cmdr (by simp)
  simp [send, hw, Regs.set, Regs.get, hc]

@[simp] theorem setResp_reply_resp (q : Words4) (s : State) : (setResp q s).engine.reply.resp = q := rfl
@[simp] theorem setOut_reply_out (o : EngOutcome) (s : State) : (setOut o s).engine.reply.out = o := rfl
@[simp] theorem setOut_reply_resp (o : EngOutcome) (s : State) : (setOut o s).engine.reply.resp = s.engine.reply.resp := rfl

/-- Putting response words into the reply keeps everything of the frame. -/
theorem setResp_kept (l : List Reg) (q : Words4) (s : State) : Kept l s (setResp q s) :=
  ⟨rfl, rfl, rfl, rfl, rfl, rfl, rfl, rfl, rfl, fun _ _ => rfl⟩
theorem setOut_kept (l : List Reg) (o : EngOutcome) (s : State) : Kept l s (setOut o s) :=
  ⟨rfl, rfl, rfl, rfl, rfl, rfl, rfl, rfl, rfl, fun _ _ => rfl⟩

/-- The response registers a kind reads (40_engine.md R145). -/
def respRegs : RespKind → List Reg
  | .none => []
  | .short => [.resp1]
  | .long => [.resp1, .resp2, .resp3, .resp4]

/-- Reading a response keeps everything but the response registers read and STAR. -/
theorem readResponse_kept (kind : RespKind) (s : State) : Kept (.star :: respRegs kind) s (readResponse kind s) := by
  cases kind with
  | none => exact Kept.refl _ s
  | short => exact ((readNext_kept .resp1 s).mono (by simp [respRegs])).trans (setResp_kept _ _ _)
  | long =>
    exact ((((readNext_kept .resp1 s).mono (by simp [respRegs])).trans
      ((readNext_kept .resp2 _).mono (by simp [respRegs]))).trans
      (((readNext_kept .resp3 _).mono (by simp [respRegs])).trans
        ((readNext_kept .resp4 _).mono (by simp [respRegs])))).trans (setResp_kept _ _ _)

/-- What `command` touches: the two command registers, ICR, STAR and the response registers of its kind. -/
def commandRegs (kind : RespKind) : List Reg := [.argr, .cmdr, .icr, .star] ++ respRegs kind

/-- Everything after a command's `send` keeps all but ICR, STAR and the response registers. -/
theorem command_after_send (row : Row) (arg : Word) (n : Nat) (s : State) :
    Kept ([.icr, .star] ++ respRegs row.kind) (send row arg s) (command row arg n s) := by
  have h := (awaitRow_kept row n (send row arg s)).mono (l' := [.icr, .star] ++ respRegs row.kind) (by simp)
  refine Kept.trans (t := if acceptR3 s.params row.sdResp (awaitRow row n (send row arg s)).1 = .success
    then readResponse row.kind (awaitRow row n (send row arg s)).2 else (awaitRow row n (send row arg s)).2)
    ?_ (setOut_kept _ _ _)
  split
  · exact h.trans ((readResponse_kept row.kind _).mono (by
      intro q hq
      rcases List.mem_cons.mp hq with rfl | hq
      · simp
      · simp [hq]))
  · exact h

/-- The frame of `command` (40_engine.md R147). -/
theorem command_kept (row : Row) (arg : Word) (n : Nat) (s : State) :
    Kept (commandRegs row.kind) s (command row arg n s) :=
  ((send_kept row arg s).mono (by simp [commandRegs])).trans
    ((command_after_send row arg n s).mono (by
      intro q hq
      simp only [commandRegs, List.mem_append, List.mem_cons, List.not_mem_nil, or_false] at hq ⊢
      tauto))

/-- The outcome `command` returns (40_engine.md R147). -/
@[simp] theorem command_out (row : Row) (arg : Word) (n : Nat) (s : State) :
    (command row arg n s).engine.reply.out = acceptR3 s.params row.sdResp (awaitRow row n (send row arg s)).1 := rfl

/-- The response words `command` returns (40_engine.md R147): those read on Success. -/
theorem command_resp (row : Row) (arg : Word) (n : Nat) (s : State) :
    (command row arg n s).engine.reply.resp =
      if acceptR3 s.params row.sdResp (awaitRow row n (send row arg s)).1 = .success
      then (readResponse row.kind (awaitRow row n (send row arg s)).2).engine.reply.resp
      else (awaitRow row n (send row arg s)).2.engine.reply.resp := by
  simp only [command, setOut_reply_resp]
  split <;> rfl

/-- `command` leaves the word in the two command registers. -/
theorem command_argr (row : Row) (arg : Word) (n : Nat) (s : State) :
    (command row arg n s).regs.argr = arg &&& s.params.layout.rw.argr := by
  have h := (command_after_send row arg n s).regs .argr (by cases row.kind <;> simp [respRegs])
  exact Eq.trans h (send_argr row arg s)
theorem command_cmdr (row : Row) (arg : Word) (n : Nat) (s : State) :
    (command row arg n s).regs.cmdr = rmwWord s.regs.cmdr (cmdFields s.params.layout) (cmdw s.params.layout row.index row.kind) := by
  have h := (command_after_send row arg n s).regs .cmdr (by cases row.kind <;> simp [respRegs])
  exact Eq.trans h (send_cmdr row arg s)

/-- A wait keeps the reply: only `command` itself writes it. -/
theorem poll_reply (stop : Word → Bool) (n : Nat) (s : State) : (poll stop n s).2.engine = s.engine :=
  poll_induct (P := fun u => u.engine = s.engine) stop (fun u h => by simpa using h) n s rfl
theorem awaitRow_engine (row : Row) (n : Nat) (s : State) : (awaitRow row n s).2.engine = s.engine := by
  obtain ⟨stop, m, h⟩ := awaitRow_state row n s
  rw [h]
  simp [poll_reply]

end Sys2Proof.Machine
end

