-- ==== Sys2Proof/Laws/PerInstr.lean ====
section
/-! SUPPORT. The statements made once per instruction (LAWS.json). -/

namespace Sys2Proof.Laws

/-- In the default layout the encoding of an instruction carries its argument, its row's index and kind, and the path-enable bit, and no bit
outside CMD_FIELDS (30_encoding.md R100 to R102). -/
def EncodeFields.Statement (i : Instr) : Prop :=
  (encode Machine.standardLayout i).arg = i.arg
    ∧ (encode Machine.standardLayout i).cmdr.extractLsb' 0 6 = i.row.index
    ∧ (encode Machine.standardLayout i).cmdr.extractLsb' 8 2 = i.row.kind.code
    ∧ (encode Machine.standardLayout i).cmdr.getLsbD 12 = true
    ∧ (encode Machine.standardLayout i).cmdr &&& ~~~Machine.cmdFields Machine.standardLayout = 0

/-- Every encoding has them. -/
theorem encode_fields (i : Instr) : EncodeFields.Statement i := by
  refine ⟨rfl, ?_⟩
  cases i <;> simp only [encode, Instr.row] <;> decide

theorem EncodeFields.cmd0 (arg : Word) : EncodeFields.Statement (.cmd0 arg) :=
  encode_fields _

theorem EncodeFields.cmd1 (arg : Word) : EncodeFields.Statement (.cmd1 arg) :=
  encode_fields _

theorem EncodeFields.cmd2 (arg : Word) : EncodeFields.Statement (.cmd2 arg) :=
  encode_fields _

theorem EncodeFields.cmd3 (arg : Word) : EncodeFields.Statement (.cmd3 arg) :=
  encode_fields _

theorem EncodeFields.cmd7 (arg : Word) : EncodeFields.Statement (.cmd7 arg) :=
  encode_fields _

theorem EncodeFields.cmd8 (arg : Word) : EncodeFields.Statement (.cmd8 arg) :=
  encode_fields _

theorem EncodeFields.cmd9 (arg : Word) : EncodeFields.Statement (.cmd9 arg) :=
  encode_fields _

theorem EncodeFields.cmd12 (arg : Word) : EncodeFields.Statement (.cmd12 arg) :=
  encode_fields _

theorem EncodeFields.cmd13 (arg : Word) : EncodeFields.Statement (.cmd13 arg) :=
  encode_fields _

theorem EncodeFields.cmd16 (arg : Word) : EncodeFields.Statement (.cmd16 arg) :=
  encode_fields _

theorem EncodeFields.cmd55 (arg : Word) : EncodeFields.Statement (.cmd55 arg) :=
  encode_fields _

theorem EncodeFields.acmd6 (arg : Word) : EncodeFields.Statement (.acmd6 arg) :=
  encode_fields _

theorem EncodeFields.acmd41 (arg : Word) : EncodeFields.Statement (.acmd41 arg) :=
  encode_fields _

theorem EncodeFields.acmd51 (arg : Word) : EncodeFields.Statement (.acmd51 arg) :=
  encode_fields _

end Sys2Proof.Laws
end

