-- ==== Sys2Proof/WellFormed.lean ====
section
/-! DEFINITION. Well-formed instructions: the argument has the form that 30_encoding.md R103 gives the row. The decoder
does not check it (R111) and the machine runs an instruction whether or not it is well formed (log 27). -/

namespace Sys2Proof

/-- The argument has its row's form (30_encoding.md R103, R108). The form "rca" is any word (the whole
send-relative-address response, R183); CMD55 takes zero or the RCA; CMD1 is never issued and has no form (R181). -/
def Instr.wellFormed : Instr → Bool
  | .cmd0 a => a == Machine.argZero
  | .cmd1 _ => true
  | .cmd2 a => a == Machine.argZero
  | .cmd3 a => a == Machine.argZero
  | .cmd7 _ => true
  | .cmd8 a => a == Machine.argIfCond
  | .cmd9 _ => true
  | .cmd12 a => a == Machine.argZero
  | .cmd13 _ => true
  | .cmd16 a => a == Machine.argBlockLen
  | .cmd55 _ => true
  | .acmd6 a => a == Machine.argBusWidth
  | .acmd41 a => a == Machine.argOpCond
  | .acmd51 a => a == Machine.argZero

end Sys2Proof
end

