-- ==== Sys2Proof/Tests/Slice0.lean ====
section
/-! SUPPORT. Tests on small states: the argument checks, the decoder on words written out from the spec's encodings, one
step of each instruction and operation with the values of the spec's examples, and for every statement with hypotheses a
witness that they can be met, at the boundary values of each clause. -/

namespace Sys2Proof.Tests

open Sys2Proof.Machine

/-! ### Helpers -/

/-- Parameters for the tests: every budget 4 (the wait 8), the suggested base, D8's acceptance on. -/
def params : Params where
  pclk := 100000000
  sentMore := 3
  respMore := 3
  drainMore := 3
  stopMore := 3
  waitMore := 7
  voltMore := 3
  readyMore := 3
  dtimer := 0xFFFFFFFF
  negedge := 0
  pwrsav := 0
  hwfc := 0
  r3CrcAccept := true
  overrunResult := .timeout
  layout := standardLayout
  base := 0x52007000
  pinAf := 12
  irqPrio := 1
  writeGap := 0

/-- The state after reset with those parameters, at a point, ENV's answers scripted. -/
def mk (p : SeqPoint) (script : List (EnvPort × Word)) : State :=
  { State.reset with params := params, seq := { State.reset.seq with pc := p }, env := ⟨script, 0⟩ }

/-- The same with the outcome and the first response word of a command in the reply. -/
def mkReply (p : SeqPoint) (o : EngOutcome) (r : Word) : State :=
  { mk p [] with engine := ⟨none, false, ⟨o, ⟨r, 0, 0, 0⟩⟩⟩ }

/-- The ready card with a transfer in flight and the handler in a phase. -/
def mkIrq (ph : IrqPhase) (latched multi : Bool) (script : List (EnvPort × Word)) : State :=
  { mk .ready script with
    seq := { (mk .ready script).seq with acquired := false, startMulti := multi }
    xfer := ⟨false, false, multi, 0, true⟩
    regs := { Regs.reset with maskr := 0x13A, cmdr := 0x1152, dlenr := 0x200, dctrl := 0x93 }
    irq := ⟨true, latched, ph⟩ }

/-- A test on the next state. -/
def nextIs (r : StepResult) (f : State → Bool) : Bool :=
  match r with
  | .next t => f t
  | .fault _ => false
  | .refused _ => false

/-- Whether a step is a given refusal. -/
def refuses (r : StepResult) (e : Refusal) : Bool :=
  match r with
  | .next _ => false
  | .fault _ => false
  | .refused e' => e' == e

/-- Whether a step is a given fault. -/
def faults (r : StepResult) (e : Fault) : Bool :=
  match r with
  | .next _ => false
  | .fault e' => e' == e
  | .refused _ => false

/-! ### Well-formed instructions (30_encoding.md R103) -/

theorem test_wellFormed_forms :
    (Instr.cmd0 0).wellFormed ∧ (Instr.cmd2 0).wellFormed ∧ (Instr.cmd3 0).wellFormed ∧ (Instr.cmd8 0x1AA).wellFormed
      ∧ (Instr.cmd12 0).wellFormed ∧ (Instr.cmd16 8).wellFormed ∧ (Instr.acmd6 2).wellFormed
      ∧ (Instr.acmd41 0xC0100000).wellFormed ∧ (Instr.acmd51 0).wellFormed := by decide

theorem test_illFormed_zero :
    ¬ (Instr.cmd0 1).wellFormed ∧ ¬ (Instr.cmd2 1).wellFormed ∧ ¬ (Instr.cmd3 0x80000000).wellFormed
      ∧ ¬ (Instr.cmd12 1).wellFormed ∧ ¬ (Instr.acmd51 8).wellFormed := by decide

theorem test_illFormed_constant :
    ¬ (Instr.cmd8 0x1AB).wellFormed ∧ ¬ (Instr.cmd16 512).wellFormed ∧ ¬ (Instr.acmd6 0).wellFormed
      ∧ ¬ (Instr.acmd41 0x40100000).wellFormed := by decide

/-! ### Decoding (30_encoding.md R100 to R111; bit fields CPSMEN 12, WAITRESP 9:8, CMDINDEX 5:0) -/

/-- CMD0: CPSMEN, WAITRESP 00, index 000000. -/
theorem test_decode_cmd0 : decode standardLayout false ⟨0, 0b0_0001_00_00_00_000000⟩ = .instr (.cmd0 0) := by decide
/-- CMD1: CPSMEN, WAITRESP 01, index 000001. -/
theorem test_decode_cmd1 : decode standardLayout false ⟨7, 0b0_0001_00_01_00_000001⟩ = .instr (.cmd1 7) := by decide
/-- CMD2: CPSMEN, WAITRESP 11, index 000010. -/
theorem test_decode_cmd2 : decode standardLayout false ⟨0, 0b0_0001_00_11_00_000010⟩ = .instr (.cmd2 0) := by decide
/-- CMD3: CPSMEN, WAITRESP 01, index 000011. -/
theorem test_decode_cmd3 : decode standardLayout false ⟨0, 0b0_0001_00_01_00_000011⟩ = .instr (.cmd3 0) := by decide
/-- CMD7: CPSMEN, WAITRESP 01, index 000111. -/
theorem test_decode_cmd7 : decode standardLayout false ⟨0x1234, 0b0_0001_00_01_00_000111⟩ = .instr (.cmd7 0x1234) := by decide
/-- CMD8: CPSMEN, WAITRESP 01, index 001000 (R102's example 0x00001108). -/
theorem test_decode_cmd8 : decode standardLayout false ⟨0x1AA, 0b0_0001_00_01_00_001000⟩ = .instr (.cmd8 0x1AA) := by decide
/-- CMD9: CPSMEN, WAITRESP 11, index 001001. -/
theorem test_decode_cmd9 : decode standardLayout false ⟨0x1234, 0b0_0001_00_11_00_001001⟩ = .instr (.cmd9 0x1234) := by decide
/-- CMD12: CPSMEN, WAITRESP 01, index 001100. -/
theorem test_decode_cmd12 : decode standardLayout false ⟨0, 0b0_0001_00_01_00_001100⟩ = .instr (.cmd12 0) := by decide
/-- CMD13: CPSMEN, WAITRESP 01, index 001101. -/
theorem test_decode_cmd13 : decode standardLayout true ⟨0x1234, 0b0_0001_00_01_00_001101⟩ = .reject .noRow
    ∧ decode standardLayout false ⟨0x1234, 0b0_0001_00_01_00_001101⟩ = .instr (.cmd13 0x1234) := by decide
/-- CMD16: CPSMEN, WAITRESP 01, index 010000. -/
theorem test_decode_cmd16 : decode standardLayout false ⟨8, 0b0_0001_00_01_00_010000⟩ = .instr (.cmd16 8) := by decide
/-- CMD55: CPSMEN, WAITRESP 01, index 110111. -/
theorem test_decode_cmd55 : decode standardLayout false ⟨0x1234, 0b0_0001_00_01_00_110111⟩ = .instr (.cmd55 0x1234) := by decide
/-- ACMD6 with the prefix, and no instruction without it: index 000110 (R109, R110). -/
theorem test_decode_acmd6 : decode standardLayout true ⟨2, 0b0_0001_00_01_00_000110⟩ = .instr (.acmd6 2)
    ∧ decode standardLayout false ⟨2, 0b0_0001_00_01_00_000110⟩ = .reject .noRow := by decide
/-- ACMD41: index 101001. -/
theorem test_decode_acmd41 : decode standardLayout true ⟨0xC0100000, 0b0_0001_00_01_00_101001⟩ = .instr (.acmd41 0xC0100000) := by decide
/-- ACMD51: index 110011. -/
theorem test_decode_acmd51 : decode standardLayout true ⟨0, 0b0_0001_00_01_00_110011⟩ = .instr (.acmd51 0) := by decide
/-- The encodings of R110 are refused, each by its name; a bit outside CMD_FIELDS (CMDTRANS, bit 6) is not looked at. -/
theorem test_decode_refused :
    decode standardLayout false ⟨0x1AA, 0x1208⟩ = .reject .reservedKind ∧ decode standardLayout false ⟨0, 0x1200⟩ = .reject .reservedKind
      ∧ decode standardLayout false ⟨0x1AA, 0x0108⟩ = .reject .pathDisabled
      ∧ decode standardLayout false ⟨0x1AA, 0x1508⟩ = .reject .waitInt ∧ decode standardLayout false ⟨0x1AA, 0x1908⟩ = .reject .waitPend
      ∧ decode standardLayout false ⟨0x1AA, 0x11108⟩ = .reject .suspend ∧ decode standardLayout false ⟨0x1AA, 0x1308⟩ = .reject .noRow
      ∧ decode standardLayout false ⟨0x1AA, 0x1148⟩ = .instr (.cmd8 0x1AA) := by decide
/-- As the opcode table numbers the bits: the CMDR half alone, and both halves. -/
theorem test_decodeTableWord :
    decodeTableWord 32 0x00001106 = some (.acmd6 0) ∧ decodeTableWord 64 0x000001AA00001108 = some (.cmd8 0x1AA)
      ∧ decodeTableWord 32 0x00000108 = none := by decide

/-! ### The command words, one step each, from the slot -/

/-- A table word placed where the machine runs its next instruction, with ENV's answers scripted. -/
def placed (nbits w : Nat) (script : List (EnvPort × Word)) : State := (mk .off script).withFetchWord nbits w

/-- R180's example: STAR = 0x80 on the first read. -/
theorem test_step_cmd0 : nextIs (step (placed 64 0x1000 [(.star, 0x80)])) (fun t =>
    t.engine.reply.out == .success && t.regs.cmdr == 0x1000 && t.engine.slot.isNone
      && t.session.lastStatus == some 0x80 && t.regs.icr == 0x002000C5) := by decide
/-- R181, R192: the response is kept as ACMD41's is, with CCRCFAIL accepted (D8). -/
theorem test_step_cmd1 : nextIs (step (placed 64 0x1101 [(.star, 0x1), (.resp1, 0x80FF8000)])) (fun t =>
    t.engine.reply.out == .success && t.session.ocr == some 0x80FF8000) := by decide
/-- R182's example. -/
theorem test_step_cmd2 : nextIs (step (placed 64 0x1302 [(.star, 0x40), (.resp1, 1), (.resp2, 2), (.resp3, 3), (.resp4, 4)]))
    (fun t => t.session.cid == some ⟨1, 2, 3, 4⟩ && t.regs.cmdr == 0x1302) := by decide
/-- R183's example; a CRC failure is not accepted for an R6 response. -/
theorem test_step_cmd3 : nextIs (step (placed 64 0x1103 [(.star, 0x40), (.resp1, 0x1234)])) (fun t =>
      t.session.rca == some 0x1234)
    ∧ nextIs (step (placed 64 0x1103 [(.star, 0x1), (.resp1, 0x1234)])) (fun t =>
      t.session.rca.isNone && t.engine.reply.out == .crcFailure && t.env.script == [(.resp1, 0x1234)]) := by decide
/-- R184: the argument reaches ARGR; BUSYD0END ends the wait (40_engine.md R143). -/
theorem test_step_cmd7 : nextIs (step (placed 64 0x0000123400001107 [(.star, 0x200000), (.resp1, 0x700)])) (fun t =>
    t.regs.argr == 0x1234 && t.engine.reply.out == .success && t.session.rca.isNone) := by decide
/-- R140's example: ARGR = 0x1AA, then CMDR = 0x1108. -/
theorem test_step_cmd8 : nextIs (step (placed 64 0x000001AA00001108 [(.star, 0x4)])) (fun t =>
    t.regs.argr == 0x1AA && t.regs.cmdr == 0x1108 && t.engine.reply.out == .hwTimeout) := by decide
/-- R186: the CSD. -/
theorem test_step_cmd9 : nextIs (step (placed 64 0x1309 [(.star, 0x40), (.resp1, 5), (.resp2, 6), (.resp3, 7), (.resp4, 8)]))
    (fun t => t.session.csd == some ⟨5, 6, 7, 8⟩ && t.session.cid.isNone) := by decide
/-- R187: the wait is `P_STOP_BUDGET`'s, and the record is not written. -/
theorem test_step_cmd12 : nextIs (step (placed 64 0x110C [(.star, 0x2000), (.star, 0x200000), (.resp1, 0xB00)])) (fun t =>
    t.engine.reply.out == .success && t.engine.reply.resp.w0 == 0xB00 && t.xfer == ⟨false, false, false, 0, false⟩) := by
  decide
/-- R188: the card state comes from the response. -/
theorem test_step_cmd13 : nextIs (step (placed 64 0x110D [(.star, 0x40), (.resp1, 0x900)])) (fun t =>
    cardState t.engine.reply.resp.w0 == 4#4) := by decide
/-- R189. -/
theorem test_step_cmd16 : nextIs (step (placed 64 0x0000000800001110 [(.star, 0x40), (.resp1, 0x900)])) (fun t =>
    t.regs.argr == 8 && t.regs.cmdr == 0x1110 && t.engine.reply.resp.w0 == 0x900) := by decide
/-- R190, R109: the prefix bit is set after CMD55; an exhausted budget clears the flags all the same (40_engine.md R143). -/
theorem test_step_cmd55 : nextIs (step (placed 64 0x1137
    [(.star, 0x2000), (.star, 0), (.star, 0), (.star, 0x2040)])) (fun t =>
    t.engine.appPending && t.engine.reply.out == .budgetExhausted && t.regs.icr == 0x002000C5
      && t.session.lastStatus == some 0x2040) := by decide
/-- R191, R109: the prefix bit is cleared by the ACMD word; the bus width of CLKCR is not touched. -/
theorem test_step_acmd6 : nextIs (step (placed 64 0x0000000200001106 [(.star, 0x40), (.resp1, 0x920)])) (fun t =>
    !t.engine.appPending && t.regs.argr == 2 && t.regs.clkcr == 0) := by decide
/-- R192's example: the OCR, CCRCFAIL accepted. -/
theorem test_step_acmd41 : nextIs (step (placed 64 0xC010000000001129 [(.star, 0x1), (.resp1, 0x80FF8000)])) (fun t =>
    t.regs.argr == 0xC0100000 && t.session.ocr == some 0x80FF8000 && t.engine.reply.out == .success) := by decide
/-- R193: the command phase only; FIFOR is not read. -/
theorem test_step_acmd51 : nextIs (step (placed 64 0x1133 [(.star, 0x40), (.resp1, 0x920), (.fifor, 0x400)])) (fun t =>
    t.engine.reply.out == .success && t.env.script == [(.fifor, 0x400)] && t.session.scrRaw.isNone) := by decide
/-- 60_exceptions.md R278: SEQ's word while a transfer is in flight. -/
theorem test_step_concurrent : refuses (step { placed 64 0x1000 [] with xfer := ⟨false, false, false, 0, true⟩ })
    .concurrent := by decide
/-- 40_engine.md R140: CMDTRANS and the reserved bits keep their value. -/
theorem test_send_keeps_other_bits :
    (send (Instr.cmd8 0).row 0x1AA { mk .off [] with regs := { Regs.reset with cmdr := 0xFFFFFFFF } }).regs.cmdr
      = 0xFFFEF1C8 := by decide

/-! ### Witnesses: the hypotheses of the statements can be met -/

/-- A decoded word and the agreement's right side, and a word that is none. -/
theorem witness_DecodeAndEncodeAgree :
    (decode standardLayout true ⟨2, 0xFFFEF1C6⟩ = .instr (.acmd6 2)
      ∧ (true = (Instr.acmd6 2).row.app ∧ (0xFFFEF1C6 : Word) &&& 0x00011F3F = cmdw standardLayout 6 .short))
    ∧ decode standardLayout false ⟨2, 0x1106⟩ ≠ .instr (.acmd6 2) := by decide

/-- A word of each clause: reserved kind with index 0, each forbidden bit, the path disabled, and a pair of no row. -/
theorem witness_ReservedWordsAreRefused :
    (0x1200 : Word).extractLsb' 8 2 = 0b10 ∧ (0x1400 : Word).getLsbD 10 = true ∧ (0x1800 : Word).getLsbD 11 = true
      ∧ (0x11000 : Word).getLsbD 16 = true ∧ (0 : Word).getLsbD 12 = false
      ∧ ([0x1200, 0x1400, 0x1800, 0x11000, 0] : List Word).all (fun w => decode standardLayout false ⟨0, w⟩ != .instr (.cmd0 0)) := by decide
theorem witness_ReservedWordsAreRefused_pair :
    (∀ i : Instr, ¬ (i.row.app = true ∧ i.row.index = (0x1000 : Word).extractLsb' 0 6))
      ∧ decode standardLayout true ⟨0, 0x1000⟩ = .reject .noRow := by
  refine ⟨fun i => ?_, by decide⟩
  cases i <;> simp [Instr.row]
/-- The index of a row with another row's kind: 0x1308. -/
theorem witness_ReservedWordsAreRefused_kind :
    (∀ i : Instr, ¬ (i.row.app = false ∧ (0x1308 : Word) &&& 0x00011F3F = cmdw standardLayout i.row.index i.row.kind))
      ∧ decode standardLayout false ⟨0, 0x1308⟩ = .reject .noRow := by
  refine ⟨fun i => ?_, by decide⟩
  cases i <;> simp only [Instr.row] <;> decide
theorem witness_ReservedWordsAreRefused_step :
    (mk .off []).irq.phase = .idle ∧ (mk .off []).irq.latched = false
      ∧ refuses (step (placed 64 0x1200 [])) (.notAnInstruction .reservedKind)
      ∧ refuses (step (placed 64 0x113F [])) (.notAnInstruction .noRow) := by decide

/-- A word that runs, the same outside a transfer with the line raised in the middle, and one that is refused. -/
theorem witness_StepRunsTheDecodedWord :
    (placed 64 0x1000 [(.star, 0x80)]).engine.slot = some ⟨0, 0x1000⟩
      ∧ decode standardLayout (placed 64 0x1000 []).engine.appPending ⟨0, 0x1000⟩ = .instr (.cmd0 0)
      ∧ nextIs (exec (.cmd0 0) (mk .off [(.star, 0x80)])) (fun t => !t.irq.latched)
      ∧ refuses (exec (.cmd0 0) { mk .off [] with xfer := ⟨false, false, false, 0, true⟩ }) .concurrent := by decide
/-- A state with the line enabled outside a transfer, where the flags shown after the first access raise it. -/
def raised : State :=
  { placed 64 0x1000 [(.flags, 0x100), (.flags, 0), (.flags, 0), (.star, 0x80), (.flags, 0), (.flags, 0)] with
    irq := ⟨true, false, .idle⟩, regs := { Regs.reset with maskr := 0x100 } }
theorem witness_StepRunsTheDecodedWord_raised :
    canInterrupt raised = true ∧ nextIs (exec (.cmd0 0) (fetched (.cmd0 0) raised)) (fun t => t.irq.latched)
      ∧ faults (step raised) .handlerOutsideTransfer := by decide

/-- CMDSENT on the last read of the budget, and never. -/
theorem witness_AwaitSentStopsAtCommandSent :
    ((∀ j < 1, (pollWord j (mk .off [(.star, 0x2000), (.star, 0x80)])).getLsbD 7 = false)
      ∧ (pollWord 1 (mk .off [(.star, 0x2000), (.star, 0x80)])).getLsbD 7 = true)
    ∧ (∀ j < 2, (pollWord j (mk .off [(.star, 0x2000), (.star, 0x40)])).getLsbD 7 = false)
    ∧ (awaitSent 2 (mk .off [(.star, 0x2000), (.star, 0x80)])).1 = .success
    ∧ (awaitSent 1 (mk .off [(.star, 0x2000), (.star, 0x80)])).1 = .budgetExhausted := by decide

/-- A terminal flag on the last read, seen before with CPSMACT; each outcome; and none in the budget. -/
theorem witness_AwaitResponseStopsAtTerminal :
    ((∀ j < 1, pollWord j (mk .off [(.star, 0x2040), (.star, 0x45)]) &&& 0x00200045 = 0
        ∨ (pollWord j (mk .off [(.star, 0x2040), (.star, 0x45)])).getLsbD 13 = true)
      ∧ pollWord 1 (mk .off [(.star, 0x2040), (.star, 0x45)]) &&& 0x00200045 ≠ 0
      ∧ (pollWord 1 (mk .off [(.star, 0x2040), (.star, 0x45)])).getLsbD 13 = false)
    ∧ (awaitResponse 2 (mk .off [(.star, 0x2040), (.star, 0x45)])).1 = .hwTimeout
    ∧ (awaitResponse 1 (mk .off [(.star, 0x41)])).1 = .crcFailure
    ∧ (awaitResponse 1 (mk .off [(.star, 0x200000)])).1 = .success
    ∧ (awaitResponse 1 (mk .off [(.star, 0x2040), (.star, 0x45)])).1 = .budgetExhausted := by decide

/-- The default layout, the premise `standard` of the statements about register words. -/
theorem witness_standard : standard (mk .off []) = true ∧ standard State.reset = true := by decide

theorem witness_EveryAwaitEndsWithTheClear : canInterrupt (mk .off []) = false := by decide

/-- 40_engine.md R142, R143: an exhausted budget of 2 is 2 reads. -/
theorem witness_AwaitsReadWithinBudget :
    (awaitSent 2 (mk .off [(.star, 0), (.star, 0)])).1 = .budgetExhausted
      ∧ starReads (awaitSent 2 (mk .off [(.star, 0), (.star, 0)])).2.trace = 2
      ∧ (awaitResponse 2 (mk .off [(.star, 0x2040), (.star, 0x2000)])).1 = .budgetExhausted
      ∧ starReads (awaitResponse 2 (mk .off [(.star, 0x2040), (.star, 0x2000)])).2.trace = 2 := by decide

/-- A free engine: CmdZeroCompletes, AddressedCommandsComplete, ConfigurationCommandsComplete, StopTransmissionCompletes,
LongResponsesAreStored, RelativeAddressIsStoredWhole, OperatingConditionIsStored, ShortReadProgramsTheDataPath. -/
theorem witness_engine_free : engineBusy (mk .off []) = false := by decide
/-- The handler's use of the engine during a transfer. -/
theorem witness_engine_free_for_irq : engineBusy (mkIrq .stop false true []) = false := by decide
/-- The answers of the completion statements with a Success: the outcome and the response they name. -/
theorem witness_AddressedCommandsComplete :
    nextIs (exec (.cmd13 0x1234) (mk .off [(.star, 0x40), (.resp1, 0x900)])) (fun t =>
      t.engine.reply.out == .success
        && t.engine.reply.resp.w0 == readValue .resp1 (awaited (.cmd13 0x1234) (mk .off [(.star, 0x40), (.resp1, 0x900)])))
    := by decide
theorem witness_ConfigurationCommandsComplete :
    nextIs (exec (.cmd16 8) (mk .off [(.star, 0x40), (.resp1, 0x900)])) (fun t =>
      t.engine.reply.out == .success
        && t.engine.reply.resp.w0 == readValue .resp1 (awaited (.cmd16 8) (mk .off [(.star, 0x40), (.resp1, 0x900)])))
    := by decide
theorem witness_StopTransmissionCompletes :
    nextIs (exec (.cmd12 0) (mkIrq .stop false true [(.star, 0x200000), (.resp1, 0xB00)])) (fun t =>
      t.engine.reply.out == .success && t.engine.reply.resp.w0 == 0xB00) := by decide

/-- The status words of the clauses: CMDREND, and BUSYD0END; nothing is left in STAR. -/
theorem witness_AnsweredCommandsStoreTheAnswer :
    ([0x40, 0x200000] : List Word).all fun st =>
      st &&& 0x00200040 != 0 && !st.getLsbD 13 && !st.getLsbD 2 && !st.getLsbD 0
        && (mk .off []).regs.star &&& 0x00000005 == 0 && !canInterrupt (mk .off []) := by decide
/-- 10_state.md R60: a sticky flag left in STAR is seen by the next read. -/
theorem witness_AnsweredCommandsStoreTheAnswer_sticky :
    nextIs (exec (.cmd3 0) { mk .off [(.star, 0x40), (.resp1, 0x1234)] with regs := { Regs.reset with star := 0x100 } })
      (fun t => t.session.rca == some 0x1234 && t.session.lastStatus == some 0x140) := by decide

/-- A long and a short word that give a next state. -/
theorem witness_CommandFrame :
    nextIs (exec (.cmd9 0x1234) (mk .off [(.star, 0x40)])) (fun t => t.regs.argr == 0x1234)
      ∧ nextIs (exec (.cmd3 0) (mk .off [(.star, 0x40)])) (fun t => t.regs.cmdr == 0x1103)
      ∧ nextIs (exec (.cmd0 0) (mk .off [(.star, 0x80)])) (fun t => t.regs.icr == 0x002000C5) := by decide

theorem witness_CommandsNeverFault :
    ((mkIrq .idle false false []).irq.phase = .idle ∧ (mkIrq .idle false false []).xfer.inFlight = true)
      ∧ ¬ ((mkIrq .stop false false []).irq.phase = .idle ∧ (mkIrq .stop false false []).xfer.inFlight = true)
      ∧ ¬ ((mk .off []).irq.phase = .idle ∧ (mk .off []).xfer.inFlight = true) := by decide

/-- The byte counts at the ends of the range, on both sides (41_datapath.md R160). -/
theorem witness_ShortReadProgramsTheDataPath :
    nextIs (beginShortRead 1 (mk .off [])) (fun t => t.regs.dctrl == 0x03)
      ∧ nextIs (beginShortRead 8 (mk .off [])) (fun t => t.regs.dctrl == 0x33 && t.regs.dlenr == 8)
      ∧ nextIs (beginShortRead 16384 (mk .off [])) (fun t => t.regs.dctrl == 0xE3)
      ∧ (∀ n ∈ [0, 3, 16383, 32768], (∀ b ≤ 14, n ≠ 2 ^ b) ∧ refuses (beginShortRead n (mk .off [])) .badByteCount)
      ∧ engineBusy (mkIrq .idle false false []) = true := by decide
/-- The step that primes the data path, and the same while a transfer is in flight. -/
theorem witness_ShortReadProgramsTheDataPath_step :
    nextIs (step (mk .configPrime [])) (fun t => t.regs.dctrl == 0x33 && t.seq.pc == .configScr)
      ∧ refuses (step { mk .configPrime [] with xfer := ⟨false, false, false, 0, true⟩ }) .concurrent := by decide

/-- The three ways a drain ends after a poll that shows nothing. -/
theorem witness_DrainOutcomes :
    (∀ j < 1, pollWord j (startDrain (mk .off [(.star, 0x81000), (.star, 0x80108)])) &&& 0x0000012A = 0
      ∧ (pollWord j (startDrain (mk .off [(.star, 0x81000), (.star, 0x80108)]))).getLsbD 19 = true)
    ∧ (drain 2 2 (mk .off [(.star, 0x81000), (.star, 0x80108)])).2.1 = .timeout
    ∧ (drain 2 2 (mk .off [(.star, 0x81000), (.star, 0x22)])).2.1 = .crcFailure
    ∧ (drain 2 1 (mk .off [(.star, 0x81000), (.star, 0x22)])).2.1 = .timeout
    ∧ (drain 2 2 (mk .off [(.star, 0x81000), (.star, 0x1000), (.fifor, 0x400), (.fifor, 0)])).1 = [0x400, 0]
    ∧ (drain 2 2 (mk .off [(.star, 0x81000), (.star, 0x1000), (.fifor, 0x400), (.fifor, 0)])).2.1 = .success := by decide

/-- 41_datapath.md R164 to R166 on the words of its example. -/
theorem test_scr_correction : scrCorrect 0x00000400 0 = 0x0004000000000000 ∧ wide4 (scrCorrect 0x00000400 0) = true
    ∧ wide4 (scrCorrect 0x00000800 0) = false ∧ bswap32 0x01020304 = 0x04030201 := by decide

/-- 43_sequencer.md R222, R227, R228: the least values of the premises, and 100 MHz to 25 MHz. -/
theorem witness_DividerLaws : speedDivider 1 1 = 1 ∧ speedDivider 100000000 25000000 = 2 ∧ initDivider 100000000 = 125 := by
  decide
theorem witness_SettleTimeIsTheCeiling : settleUs 1 1 = 148000001 ∧ settleUs 100000000 125 = 186 := by decide
/-- Both ends of the clock range, and just outside it. -/
theorem witness_BusClockBounds :
    clockInRange 800000 400 = true ∧ clockInRange 819199999 25000000 = true ∧ clockInRange 799999 400 = false
      ∧ clockInRange 819200000 25000000 = false ∧ clockInRange 800000 0 = false ∧ clockInRange 800000 391 = false := by
  decide

/-- A BringUp that is admitted, one that is concurrent in each way, and one outside the clock range. -/
theorem witness_BringUpEntry :
    (seqBusy (mk .off []) = false ∧ (mk .off []).xfer.inFlight = false
      ∧ clockInRange (mk .off []).params.pclk 25000000 = true ∧ clockInRange (mk .off []).params.pclk 0 = false)
    ∧ seqBusy (mk .speed []) = true ∧ (mkIrq .idle false false []).xfer.inFlight = true := by decide
theorem witness_ResetState : nextIs (bringUp 25000000 (mk (.failed .timeout) [])) (fun t =>
    t.session == Session.unwritten && t.seq.pc == .powerUp && t.seq.initDiv == 125#10 && t.seq.speedDiv == 2#10) := by decide

/-- A state in which only the sequencer acts, at each point the statements name. -/
theorem witness_quiet :
    ∀ p ∈ ([.powerUp, .idleReply, .probeReply 9, .voltPrefixReply 3, .voltCondReply 3, .capacity, .widthPrefix, .idleIssue,
      .configDrain, .speed, .readyReply 3] : List SeqPoint), quiet (mk p []) = true ∧ (mk p []).seq.pc = p := by decide

/-- 43_sequencer.md R211: the registers of PowerUp. -/
theorem witness_PowerUpEffect : nextIs (step { mk .powerUp [] with seq := ⟨.powerUp, 125, 2, none, none, true, false⟩ })
    (fun t => t.regs.clkcr == 0x7D && t.regs.power == 3 && t.trace.head? == some (.delay 186)) := by decide

/-- 43_sequencer.md R212, R213: every outcome, the ninth and the tenth trial. -/
theorem witness_IdleAndProbeOutcomes :
    nextIs (step (mkReply .idleReply .success 0)) (fun t => t.seq.pc == .probeIssue 0)
      ∧ nextIs (step (mkReply .idleReply .budgetExhausted 0)) (fun t => t.seq.pc == .failed .timeout)
      ∧ nextIs (step (mkReply (.probeReply 9) .success 0)) (fun t => t.session.version2 == some true)
      ∧ nextIs (step (mkReply (.probeReply 0) .crcFailure 0)) (fun t => t.seq.pc == .failed .cardUnsupported)
      ∧ nextIs (step (mkReply (.probeReply 0) .hwTimeout 0)) (fun t => t.session.version2 == some false)
      ∧ nextIs (step (mkReply (.probeReply 8) .budgetExhausted 0)) (fun t => t.seq.pc == .probeIssue 9)
      ∧ nextIs (step (mkReply (.probeReply 9) .budgetExhausted 0)) (fun t => t.seq.pc == .failed .timeout) := by decide

/-- 43_sequencer.md R214: each outcome, the echo, the last round. -/
theorem witness_VoltageNegotiationRounds :
    nextIs (step (mkReply (.voltPrefixReply 0) .crcFailure 0)) (fun t => t.seq.pc == .failed .crcFailure)
      ∧ nextIs (step (mkReply (.voltPrefixReply 0) .hwTimeout 0)) (fun t => t.seq.pc == .failed .timeout)
      ∧ nextIs (step { mkReply (.voltPrefixReply 3) .success 0 with env := ⟨[(.respcmdr, 0x37)], 0⟩ })
          (fun t => t.seq.pc == .voltCond 3)
      ∧ nextIs (step { mkReply (.voltPrefixReply 0) .success 0 with env := ⟨[(.respcmdr, 0x3F)], 0⟩ })
          (fun t => t.seq.pc == .failed .cardUnsupported)
      ∧ nextIs (step (mkReply (.voltCondReply 3) .success 0x80FF8000)) (fun t => t.seq.pc == .capacity)
      ∧ nextIs (step (mkReply (.voltCondReply 2) .success 0x00FF8000)) (fun t => t.seq.pc == .voltPrefix 3)
      ∧ nextIs (step (mkReply (.voltCondReply 3) .success 0x00FF8000)) (fun t => t.seq.pc == .failed .timeout) := by decide

/-- 43_sequencer.md R215, R221: each capability, present, absent and unwritten. -/
theorem witness_CapabilityChecks :
    faults (step (mk .capacity [])) (.unwrittenRead .ocr)
      ∧ nextIs (step { mk .capacity [] with session := { Session.unwritten with ocr := some 0xC0FF8000 } })
          (fun t => t.seq.pc == .failed .capacityUnsupported)
      ∧ nextIs (step { mk .capacity [] with session := { Session.unwritten with ocr := some 0x80FF8000 } })
          (fun t => t.seq.pc == .identIssue)
      ∧ faults (step (mk .widthPrefix [])) (.unwrittenRead .scr)
      ∧ nextIs (step { mk .widthPrefix [] with session := { Session.unwritten with scr := some 0 } })
          (fun t => t.seq.pc == .failed .busWidthUnsupported && t.engine.slot.isNone)
      ∧ faults (step { mk .widthPrefix [] with session := { Session.unwritten with scr := some 0x0004000000000000 } })
          (.unwrittenRead .rca)
      ∧ nextIs (step { mk .widthPrefix [] with
          session := { Session.unwritten with scr := some 0x0004000000000000, rca := some 0x1234 } })
          (fun t => t.engine.slot == some ⟨0x1234, 0x1137⟩) := by decide

/-- The points of both lists: the RCA unwritten for the first, written and unwritten for the second. -/
theorem witness_StatesIssueTheirWords :
    (∀ p ∈ ([.idleIssue, .probeIssue 9, .voltPrefix 3, .voltCond 3, .identIssue, .addrIssue, .configLen, .configScr,
      .widthSet] : List SeqPoint),
      quiet (mk p []) = true
        ∧ nextIs (step (mk p [])) (fun t => t.engine.slot.isSome && t.seq.pc.state == p.state))
    ∧ nextIs (step (mk (.probeIssue 9) [])) (fun t => t.seq.pc == .probeReply 9)
    ∧ nextIs (step (mk (.voltCond 3) [])) (fun t => t.seq.pc == .voltCondReply 3)
    ∧ ∀ p ∈ ([.csdIssue, .selectIssue, .configPrefix, .readyIssue 3] : List SeqPoint),
      faults (step (mk p [])) (.unwrittenRead .rca)
        ∧ nextIs (step { mk p [] with session := { Session.unwritten with rca := some 0x1234 } })
            (fun t => t.engine.slot.any (fun w => w.arg == 0x1234)) := by decide

/-- 60_exceptions.md R278: a drain while a transfer is in flight. -/
theorem witness_ScrIsStoredAfterTheDrain_inFlight :
    quiet { mk .configDrain [] with xfer := ⟨false, false, false, 0, true⟩ } = true
      ∧ refuses (step { mk .configDrain [] with xfer := ⟨false, false, false, 0, true⟩ }) .concurrent := by decide
/-- A drain of each outcome. -/
theorem witness_ScrIsStoredAfterTheDrain :
    (drain 2 4 (mk .configDrain [(.star, 0x1000), (.fifor, 0x400), (.fifor, 0)])).2.1 = .success
      ∧ (drain 2 4 (mk .configDrain [(.star, 0x2)])).2.1 = .crcFailure
      ∧ (drain 2 4 (mk .configDrain [(.star, 0x8)])).2.1 = .timeout
      ∧ nextIs (step (mk .configDrain [(.star, 0x1000), (.fifor, 0x400), (.fifor, 0)])) (fun t =>
          t.session.scr == some 0x0004000000000000 && t.session.scrRaw == some ⟨0x400, 0⟩) := by decide

/-- R223's example: CLKCR 0x7D becomes 0x4002. -/
theorem witness_SpeedTransitionEffect :
    nextIs (step { mk .speed [] with
      seq := ⟨.speed, 125, 2, none, none, true, false⟩, regs := { Regs.reset with clkcr := 0x7D } })
      (fun t => t.regs.clkcr == 0x4002 && t.seq.pc == .readyIssue 0) := by decide

/-- 43_sequencer.md R224, R225: each outcome, and the last query. -/
theorem witness_ReadyCheckOutcomes :
    nextIs (step (mkReply (.readyReply 3) .success 0x900)) (fun t => t.seq.pc == .ready && t.session.result == some .ready)
      ∧ nextIs (step (mkReply (.readyReply 2) .success 0x700)) (fun t => t.seq.pc == .readyIssue 3)
      ∧ nextIs (step (mkReply (.readyReply 3) .success 0x700)) (fun t => t.seq.pc == .failed .timeout)
      ∧ nextIs (step (mkReply (.readyReply 0) .crcFailure 0x900)) (fun t => t.seq.pc == .failed .crcFailure)
      ∧ nextIs (step (mkReply (.readyReply 0) .budgetExhausted 0x900)) (fun t => t.seq.pc == .failed .timeout) := by decide

/-- 43_sequencer.md R216 to R221: the points of the list, each outcome. -/
theorem witness_ReadyCheckOutcomes_replies :
    ∀ p ∈ ([.identReply, .addrReply, .csdReply, .selectReply, .configLenReply, .configPrefixReply, .configScrReply,
      .widthPrefixReply, .widthSetReply] : List SeqPoint),
      quiet (mkReply p .success 0) = true
        ∧ nextIs (step (mkReply p .success 0)) (fun t => t.seq.pc != p && t.session.result.isNone)
        ∧ nextIs (step (mkReply p .crcFailure 0)) (fun t => t.seq.pc == .failed .crcFailure)
        ∧ nextIs (step (mkReply p .hwTimeout 0)) (fun t => t.seq.pc == .failed .timeout)
        ∧ nextIs (step (mkReply p .budgetExhausted 0)) (fun t => t.seq.pc == .failed .timeout) := by decide

/-- A step that fails, with `last_status` written and unwritten. -/
theorem witness_FailureBookkeeping :
    nextIs (step (mkReply .identReply .crcFailure 0)) (fun t =>
      t.seq.pc == .failed .crcFailure && t.session.diagStatus.isNone && t.session.result == some (.error .crcFailure))
    ∧ nextIs (step { mkReply .identReply .hwTimeout 0 with session := { Session.unwritten with lastStatus := some 4 } })
        (fun t => t.session.diagStatus == some 4) := by decide

/-- Steps that stay, go on, fail and start again. -/
theorem witness_TransitionTable :
    nextIs (step (mk .powerUp [])) (fun t => t.seq.pc.state == .idle)
      ∧ nextIs (step (mk .idleIssue [])) (fun t => t.seq.pc.state == .idle)
      ∧ nextIs (step { mk .ready [] with calls := [⟨.bringUp 25000000, true⟩] }) (fun t => t.seq.pc.state == .powerUp) := by
  decide
theorem witness_ReadyOnlyFromTransferState :
    nextIs (step (mkReply (.readyReply 0) .success 0x900)) (fun t => t.seq.pc == .ready)
      ∧ refuses (startTransfer true (mk .speed [])) .notReady := by decide

/-- States that meet the invariant and step: a word waiting, a reply, the ready card, the handler. -/
def waiting : State := { mk (.voltCondReply 0) [(.star, 0x40), (.resp1, 0x80FF8000)] with
  session := { Session.unwritten with version2 := some true }
  engine := ⟨some ⟨0xC0100000, 0x1129⟩, true, ⟨.success, ⟨0, 0, 0, 0⟩⟩⟩ }
/-- The ready card in the invariant, with a handler that ends a multi-block transfer. -/
def finishing : State := { mkIrq .stop false true [(.star, 0x200000), (.resp1, 0xB00)] with
  session := { Session.unwritten with
    version2 := some true, ocr := some 0x80FF8000, rca := some 0x1234, scr := some 0x0004000000000000
    result := some .ready } }
theorem witness_StepKeepsTheInvariant :
    safeInv waiting = true ∧ nextIs (step waiting) (fun t => t.session.ocr == some 0x80FF8000)
      ∧ safeInv finishing = true ∧ nextIs (step finishing) (fun t => t.irq.phase == .collect) := by decide
theorem witness_SafeStatesNeverStopOnTheBlocksOwnWords : safeInv waiting = true ∧ safeInv finishing = true := by decide
theorem witness_ReservedBitsStayClear :
    finishing.regs.reservedClear standardLayout = true ∧ nextIs (step finishing) (fun t => t.regs.reservedClear standardLayout) := by decide
/-- An addressed word in the invariant. -/
def addressed : State := { finishing with
  irq := ⟨false, false, .idle⟩, xfer := ⟨false, false, false, 0, false⟩
  seq := ⟨.csdReply, 125, 2, none, none, true, false⟩
  engine := ⟨some ⟨0x1234, 0x1309⟩, false, ⟨.success, ⟨0, 0, 0, 0⟩⟩⟩ }
/-- An addressed word that fails. -/
def failing : State := { addressed with engine := ⟨none, false, ⟨.crcFailure, ⟨0, 0, 0, 0⟩⟩⟩ }
/-- A card that failed after its addressing. -/
def failed : State := { failing with
  seq := ⟨.failed .crcFailure, 125, 2, none, none, true, false⟩
  session := { failing.session with result := some (.error .crcFailure) } }
/-- The RCA of a step from Addressing on: a word, a failure, and a card that failed. -/
theorem witness_RcaIsImmutable :
    safeInv addressed = true ∧ addressed.session.rca = some 0x1234
      ∧ nextIs (step addressed) (fun t => t.seq.pc.state != .powerUp)
      ∧ safeInv failing = true ∧ nextIs (step failing) (fun t => t.seq.pc == .failed .crcFailure)
      ∧ safeInv failed = true := by decide
/-- A register that changes, and a sticky flag that drops: the writes of the trace. -/
theorem witness_ParametersFixedAndTraceGrows :
    nextIs (step (mk .speed [])) (fun t => t.trace.length == 2 && lastWritten .clkcr t.trace == some t.regs.clkcr)
      ∧ nextIs (step { placed 64 0x1000 [(.star, 0x80)] with regs := { Regs.reset with star := 0x40 } })
          (fun t => !t.regs.star.getLsbD 6 && t.trace.head? == some (.write .icr 0x002000C5)) := by decide
theorem witness_DiagStatusIsReadByNoRule :
    nextIs (step (mk .powerUp [])) (fun t => t.session.diagStatus.isNone)
      ∧ nextIs (step { mk .powerUp [] with session := { Session.unwritten with diagStatus := some 4 } })
          (fun t => t.session.diagStatus == some 4)
      ∧ faults (step (mk .capacity [])) (.unwrittenRead .ocr)
      ∧ refuses (step { mk .speed [] with calls := [⟨.bringUp 1, false⟩] }) .concurrent := by decide

/-- 60_exceptions.md R270: the entry, outside a transfer and in one. -/
theorem witness_InterruptEntry :
    ((mkIrq .idle true false []).irq.latched = true ∧ (mkIrq .idle true false []).xfer.inFlight = true)
      ∧ faults (step { mk .ready [] with irq := ⟨true, true, .idle⟩ }) .handlerOutsideTransfer
      ∧ nextIs (step (mkIrq .idle true false [])) (fun t => t.irq.phase == .dispatch && !t.irq.latched) := by decide

/-- R272's example: STAR = 0x100, single block; then a multi-block transfer. -/
theorem witness_DataEndPath :
    nextIs (step (mkIrq .dispatch false false [(.star, 0x100)])) (fun t =>
      t.irq.phase == .release && t.regs.maskr == 0 && t.regs.cmdr == 0x1112 && t.regs.dlenr == 0 && t.regs.dctrl == 0)
    ∧ nextIs (step (mkIrq .dispatch false true [(.star, 0x100)])) (fun t => t.irq.phase == .stop) := by decide
/-- R274's example, and an error with DATAEND in the same word (R265). -/
theorem witness_DataErrorPath :
    nextIs (step (mkIrq .dispatch false true [(.star, 0x8)])) (fun t =>
      t.irq.phase == .release && t.xfer.error && t.xfer.status == 8 && t.regs.dlenr == 0x200)
    ∧ nextIs (step (mkIrq .dispatch false false [(.star, 0x108)])) (fun t => t.xfer.status == 0x108) := by decide
/-- R273's example, and an entry with neither flag. -/
theorem witness_StopCommandAndSpuriousEntry :
    nextIs (step (mkIrq .dispatch false false [(.star, 0x400), (.flags, 0)])) (fun t => t.irq.phase == .idle)
      ∧ nextIs (step (mkIrq .stop false true [(.star, 0x4)])) (fun t =>
          t.irq.phase == .collect && t.engine.reply.out == .hwTimeout && t.regs.cmdr == 0x114C)
      ∧ nextIs (step { mkIrq .collect false true [] with engine := ⟨none, false, ⟨.hwTimeout, ⟨0, 0, 0, 0⟩⟩⟩ })
          (fun t => t.xfer.error && t.irq.phase == .release) := by decide
theorem witness_ReleaseCompletesTheTransfer :
    nextIs (step (mkIrq .release false true [(.flags, 0)])) (fun t =>
      t.xfer == ⟨true, false, false, 0, false⟩ && t.irq.phase == .idle) := by decide
theorem witness_RecordWritersAreDisciplined :
    (nextIs (step (mkIrq .idle false false [(.flags, 0)])) (fun t => t.xfer == ⟨false, false, false, 0, true⟩))
      ∧ (mkIrq .release false true []).xfer.completed = false := by decide

/-- 10_state.md R21 to R27: a safe state whose step changes each of CSD, OCR, SCR, version flag and result. -/
theorem witness_RecordWritersAreDisciplined_session :
    safeInv { addressed with env := ⟨[(.star, 0x40), (.resp1, 5), (.resp2, 6), (.resp3, 7), (.resp4, 8)], 0⟩ } = true
      ∧ nextIs (step { addressed with env := ⟨[(.star, 0x40), (.resp1, 5), (.resp2, 6), (.resp3, 7), (.resp4, 8)], 0⟩ })
          (fun t => t.session.csd == some ⟨5, 6, 7, 8⟩ && t.seq.pc == .csdReply)
      ∧ nextIs (step waiting) (fun t => t.session.ocr == some 0x80FF8000 && t.seq.pc == .voltCondReply 0)
      ∧ nextIs (step (mk .configDrain [(.star, 0x1000), (.fifor, 0x400), (.fifor, 0)])) (fun t => t.session.scr.isSome)
      ∧ nextIs (step (mkReply (.probeReply 9) .success 0)) (fun t => t.session.version2 == some true)
      ∧ nextIs (step (mkReply .identReply .hwTimeout 0)) (fun t => t.session.result == some (.error .timeout)) := by decide

/-- The word of Identification and of Addressing in the invariant. -/
def identifying : State := { addressed with
  seq := ⟨.identReply, 125, 2, none, none, true, false⟩
  session := { Session.unwritten with version2 := some true, ocr := some 0x80FF8000 }
  engine := ⟨some ⟨0, 0x1302⟩, false, ⟨.success, ⟨0, 0, 0, 0⟩⟩⟩
  env := ⟨[(.star, 0x40), (.resp1, 1), (.resp2, 2), (.resp3, 3), (.resp4, 4)], 0⟩ }
def addressing : State := { identifying with
  seq := ⟨.addrReply, 125, 2, none, none, true, false⟩
  engine := ⟨some ⟨0, 0x1103⟩, false, ⟨.success, ⟨0, 0, 0, 0⟩⟩⟩ }
/-- 10_state.md R21, R23, R27: a step that changes the CID, the RCA, and `diag_status`. -/
theorem witness_RecordWritersAreDisciplined_identity :
    standard identifying = true ∧ safeInv identifying = true
      ∧ nextIs (step identifying) (fun t => t.session.cid == some ⟨1, 2, 3, 4⟩ && t.seq.pc == .identReply)
      ∧ safeInv addressing = true
      ∧ nextIs (step addressing) (fun t => t.session.rca == some 1 && t.seq.pc == .addrReply)
      ∧ nextIs (step { mkReply .identReply .hwTimeout 0 with session := { Session.unwritten with lastStatus := some 4 } })
          (fun t => t.session.diagStatus == some 4 && t.seq.pc == .failed .timeout) := by decide

/-- A ready card with the line enabled and flags to be shown at the preemption points. -/
def readyLine (flags : List Word) : State :=
  { mk .ready (flags.map fun w => (.flags, w)) with
    irq := ⟨true, false, .idle⟩, regs := { Regs.reset with maskr := 0x100 } }
/-- 60_exceptions.md R276; the line raised at the fourth point (no transfer in flight yet), and at the fifth. -/
theorem witness_StartTransferEffect_line :
    (pointAfter 4 (readyLine [0, 0, 0, 0x100, 0])).irq.latched = true
      ∧ faults (startTransfer true (readyLine [0, 0, 0, 0x100, 0])) .handlerOutsideTransfer
      ∧ (pointAfter 4 (readyLine [0, 0, 0, 0, 0x100])).irq.latched = false
      ∧ nextIs (startTransfer true (readyLine [0, 0, 0, 0, 0x100])) (fun t => t.irq.latched && t.xfer.inFlight) := by decide
theorem witness_StartTransferEffect :
    nextIs (startTransfer true (mk .ready [])) (fun t => t.xfer == ⟨false, false, true, 0, true⟩)
      ∧ refuses (startTransfer true (mkIrq .idle false false [])) .notReady := by decide

/-- 70_reset_and_hazards.md R316, D45: a released transfer whose completion SEQ has not observed, and then has. -/
def released (observed : Bool) : State := { mk .ready [] with
  seq := ⟨.ready, 125, 2, none, none, observed, true⟩
  xfer := ⟨true, false, false, 0, false⟩ }
theorem witness_StartTransferEffect_unobserved :
    refuses (startTransfer true (released false)) .notReady
      ∧ nextIs (startTransfer true (released true)) (fun t => t.xfer == ⟨false, false, true, 0, true⟩) := by decide

/-- A poll with the line enabled after the release: nothing raised; and raised at the first, and at the last read. -/
def polling (flags : List Word) : State :=
  { readyLine flags with seq := ⟨.ready, 0, 0, some 1, none, false, true⟩, xfer := ⟨true, false, false, 0, false⟩ }
theorem witness_WaitTransferPolls_enabled :
    canInterrupt (polling [0, 0, 0]) = true
      ∧ nextIs (step (polling [0, 0, 0])) (fun t => t.seq.waitRet == some (.done .ready 0) && t.seq.acquired)
      ∧ faults (step (polling [0x100, 0, 0])) .handlerOutsideTransfer
      ∧ faults (step (polling [0, 0, 0x100])) .handlerOutsideTransfer := by decide

/-- A poll with the line enabled, where a transfer is in flight. -/
theorem witness_WaitTransferPolls_line :
    canInterrupt (mkIrq .idle false false []) = true
      ∧ nextIs (step { mkIrq .idle false false [(.flags, 0x100)] with
          seq := ⟨.ready, 0, 0, some 1, none, false, false⟩ }) (fun t => t.seq.wait == some 0 && t.irq.latched) := by decide
/-- A wait's last poll, an earlier one, and a completed transfer. -/
theorem witness_WaitTransferPolls :
    (canInterrupt (mk .ready []) = false ∧ (mk .ready []).engine.slot = none ∧ (mk .ready []).calls = [])
      ∧ nextIs (step { mk .ready [] with seq := ⟨.ready, 0, 0, some 0, none, false, false⟩ }) (fun t =>
          t.seq.wait.isNone && t.seq.waitRet == some .timeout)
      ∧ nextIs (step { mk .ready [] with seq := ⟨.ready, 0, 0, some 1, none, false, false⟩ }) (fun t =>
          t.seq.wait == some 0)
      ∧ nextIs (step { mk .ready [] with
            seq := ⟨.ready, 0, 0, some 0, none, false, false⟩, xfer := ⟨true, true, false, 8, false⟩ })
          (fun t => t.seq.waitRet == some (.done (.error .transferError) 8)) := by decide

/-- 20_memory.md R71: the first and the last register, a wrong width, a wrong alignment, a hole. -/
theorem witness_WindowAccesses :
    nextIs (memRead 0x52007080 4 (mk .off [(.fifor, 7)])) (fun t => t.regs.fifor == 7)
      ∧ nextIs (memWrite 0x52007000 4 3 (mk .off [])) (fun t => t.regs.power == 3)
      ∧ refuses (memRead 0x52007000 2 (mk .off [])) .badAccess ∧ refuses (memRead 0x52007002 4 (mk .off [])) .badAccess
      ∧ refuses (memRead 0x52007030 4 (mk .off [])) .badAccess ∧ refuses (memWrite 0x52007084 4 0 (mk .off [])) .badAccess := by
  decide

/-- A register with reserved bits, and ICR. -/
theorem witness_RegisterReadAfterWrite :
    Reg.power.port = none ∧ readValue .power (writeReg .power 0xFFFFFFFF (mk .off [])) = 0x1F
      ∧ (writeReg .icr 0xC5 { mk .off [] with regs := { Regs.reset with star := 0x2045 } }).regs.star = 0x2000 := by decide

/-- Routing, a flag shown and enabled, one that is not, and a spurious entry that comes again (D46). -/
theorem witness_InterruptLineIsLatched :
    canInterrupt (readyLine []) = true ∧ (point (readyLine [0x100])).irq.latched = true
      ∧ (point (readyLine [0x400])).irq.latched = false
      ∧ nextIs (routeIrq (mk .off [])) (fun t => t.irq.routed && !t.irq.latched)
      ∧ nextIs (step (mkIrq .release false false [(.flags, 0x8)])) (fun t => t.irq.latched)
      ∧ nextIs (step { mkIrq .dispatch false false [(.star, 0x400), (.flags, 0)] with
          regs := { Regs.reset with maskr := 0x400 } })
          (fun t => t.irq.latched && nextIs (step t) (fun u => u.irq.phase == .dispatch)) := by decide

/-- HOST's calls: SEQ free; busy, with a serialised call and with calls of another context; and a call that stays queued while
the handler runs. -/
def calling (p : SeqPoint) (op : HostOp) (ser : Bool) : State := { mk p [] with calls := [⟨op, ser⟩] }
theorem witness_BringUpEntry_calls :
    nextIs (step (calling .off (.bringUp 25000000) true)) (fun t => t.seq.pc == .powerUp && t.calls.isEmpty)
      ∧ nextIs (step (calling .ready .routeIrq false)) (fun t => t.irq.routed)
      ∧ seqBusy (calling .speed .waitTransfer true) = true
      ∧ nextIs (step (calling .speed .waitTransfer true)) (fun t => t.seq.pc == .readyIssue 0 && t.calls.length == 1)
      ∧ refuses (step (calling .speed .waitTransfer false)) .concurrent
      ∧ refuses (step (calling .speed (.startTransfer true) false)) .notReady
      ∧ nextIs (step (calling .speed (.memWrite 0x52007000 4 3) false)) (fun t => t.regs.power == 3 && t.calls.isEmpty)
      ∧ nextIs (step { mkIrq .release false true [(.flags, 0)] with calls := [⟨.waitTransfer, true⟩] })
          (fun t => t.calls.length == 1) := by decide

/-- 20_memory.md R80: a read of `completed` acquires where it is true, and not before. -/
theorem witness_RecordReads_acquire :
    nextIs (readRecord .completed { mk .ready [] with
        seq := ⟨.ready, 125, 2, none, none, false, true⟩, xfer := ⟨true, true, false, 8, false⟩ })
        (fun t => t.seq.acquired && t.trace == [.record .completed 1])
      ∧ nextIs (readRecord .completed { mk .ready [] with
        seq := ⟨.ready, 125, 2, none, none, false, true⟩, xfer := ⟨false, false, true, 0, true⟩ })
        (fun t => !t.seq.acquired && t.trace == [.record .completed 0]) := by decide

/-- A transfer completed whose completion SEQ has not read. -/
theorem witness_RecordReads_completed :
    nextIs (step { mkIrq .release false true [(.flags, 0)] with
        seq := ⟨.ready, 125, 2, none, none, false, true⟩ })
      (fun t => !t.seq.acquired && t.xfer.completed) := by decide

theorem witness_RecordReads :
    (mk .ready []).seq.acquired = true
      ∧ nextIs (startTransfer true (mk .ready [])) (fun t => !t.seq.acquired && !t.xfer.completed && t.seq.startMulti) := by
  decide

end Sys2Proof.Tests
end

section
/-! PROOFS. The decoder reads back what the encoder writes (30_encoding.md R111), and what a command word means, said once
for all rows (42_commands.md). -/

namespace Sys2Proof.Machine

@[simp] theorem RespKind.ofCode_code (k : RespKind) : RespKind.ofCode k.code = some k := by cases k <;> decide

/-- The bits of a command word that the decoder tests before its kind (30_encoding.md R102, R110). -/
theorem cmdw_path_bits (i : Instr) :
    (cmdw standardLayout i.row.index i.row.kind).getLsbD standardLayout.cpsmen = true
      ∧ (cmdw standardLayout i.row.index i.row.kind).getLsbD standardLayout.waitint = false
      ∧ (cmdw standardLayout i.row.index i.row.kind).getLsbD standardLayout.waitpend = false
      ∧ (cmdw standardLayout i.row.index i.row.kind).getLsbD standardLayout.cmdsuspend = false := by
  cases i <;> simp only [Instr.row] <;> decide

/-- A row names its instruction (30_encoding.md R108). -/
theorem instrOfRow_row (i : Instr) : instrOfRow i.row.app i.row.index.toNat i.row.kind i.arg = some i := by
  cases i <;> rfl

/-- In the default layout a word decodes to the instruction it encodes, where `app_pending` is as its row asks. -/
theorem decode_encode (i : Instr) : decode standardLayout i.row.app (encode standardLayout i) = .instr i := by
  obtain ⟨hcpsmen, hint, hpend, hsuspend⟩ := cmdw_path_bits i
  obtain ⟨-, hindex, hkind, -⟩ := Laws.encode_fields i
  have hi : (cmdw standardLayout i.row.index i.row.kind).extractLsb' standardLayout.cmdindex 6 = i.row.index := hindex
  have hk : (cmdw standardLayout i.row.index i.row.kind).extractLsb' standardLayout.waitresp 2 = i.row.kind.code := hkind
  simp [decode, encode, hcpsmen, hint, hpend, hsuspend, hi, hk, instrOfRow_row]

/-- What an instruction does after its `command`: the session register its rule names takes the response. -/
def storeOf : Instr → State → State
  | .cmd1 _ => keepResponse fun q t => { t with ocr := some q.w0 }
  | .cmd2 _ => keepResponse fun q t => { t with cid := some q }
  | .cmd3 _ => keepResponse fun q t => { t with rca := some q.w0 }
  | .cmd9 _ => keepResponse fun q t => { t with csd := some q }
  | .acmd41 _ => keepResponse fun q t => { t with ocr := some q.w0 }
  | .cmd0 _ | .cmd7 _ | .cmd8 _ | .cmd12 _ | .cmd13 _ | .cmd16 _ | .cmd55 _ | .acmd6 _ | .acmd51 _ => id

theorem onNext_id (r : StepResult) : onNext r id = r := by cases r <;> rfl

/-- Every instruction issues its row's word with its budget and then stores. -/
theorem exec_eq (i : Instr) (s : State) :
    exec i s = onNext (issue i.row i.arg (budgetOf i s.params) s) (storeOf i) := by
  cases i with
  | cmd1 | cmd2 | cmd3 | cmd9 | acmd41 => rfl
  | cmd0 | cmd7 | cmd8 | cmd12 | cmd13 | cmd16 | cmd55 | acmd6 | acmd51 => exact (onNext_id _).symm

end Sys2Proof.Machine
end

section
/-! PROOFS. What the invariant of a safe run says at the points that read the session or run a word. -/

namespace Sys2Proof.Machine

/-- The parts of the invariant, by name. -/
theorem safeInv_iff {s : State} : safeInv s = true ↔
    standard s = true ∧ transferInv s = true ∧ slotOk s = true ∧ prefixOk s = true ∧ sessionOk s = true
      ∧ resultOk s = true ∧ countersOk s = true ∧ s.loop = LoopCount.idle := by
  simp only [safeInv, Bool.and_eq_true, beq_iff_eq, and_assoc]

/-- The session registers that the states read are written by then (43_sequencer.md R214, R217, R220). -/
theorem written_of_sessionOk {s : State} (h : sessionOk s = true) :
    (5 ≤ s.seq.pc.state.rank → s.session.ocr.isSome = true)
      ∧ (8 ≤ s.seq.pc.state.rank → s.session.rca.isSome = true)
      ∧ (11 ≤ s.seq.pc.state.rank → s.session.scr.isSome = true) := by
  simp only [sessionOk, Bool.and_eq_true, Bool.or_eq_true, decide_eq_true_eq] at h
  obtain ⟨⟨⟨⟨⟨⟨⟨⟨-, hocr⟩, -⟩, -⟩, hrca⟩, -⟩, -⟩, hscr⟩, -⟩ := h
  exact ⟨fun hr => hocr.resolve_left (by omega), fun hr => hrca.resolve_left (by omega),
    fun hr => hscr.resolve_left (by omega)⟩

/-- A point that takes a word's outcome belongs to a running BringUp. -/
theorem running_of_awaited {p : SeqPoint} {rca : Option Word} {i : Instr} (h : p.awaited rca = some i) :
    p.running = true := by
  cases p with
  | off | ready | failed => cases h
  | _ => rfl

/-- A waiting word is the encoding of an instruction, and `app_pending` is as its row asks (30_encoding.md R109). -/
theorem waiting_word {s : State} {w : CmdWord} (hs : slotOk s = true) (hp : prefixOk s = true)
    (hw : s.engine.slot = some w) :
    ∃ i, w = encode s.params.layout i ∧ s.engine.appPending = i.row.app := by
  simp only [slotOk, hw, beq_iff_eq, Option.map_eq_some_iff] at hs
  obtain ⟨i, hi, rfl⟩ := hs
  refine ⟨i, rfl, ?_⟩
  simpa [prefixOk, hi, running_of_awaited hi, hw] using hp

end Sys2Proof.Machine
end

section
/-! PROOFS. No step from the invariant reads an unwritten session register or refuses its own word (O44): the two stops
come from `withSession` and `runWord` alone, and the invariant rules both out there. -/

namespace Sys2Proof.Machine

/-- The result is neither the fault of an unwritten read nor the refusal of a word (60_exceptions.md R263). -/
def NoOwnStop (r : StepResult) : Prop :=
  (∀ f, r ≠ .fault (.unwrittenRead f)) ∧ ∀ why, r ≠ .refused (.notAnInstruction why)

@[simp] theorem noOwnStop_next (t : State) : NoOwnStop (.next t) := by simp [NoOwnStop]
@[simp] theorem noOwnStop_fault (e : Fault) : NoOwnStop (.fault e) ↔ ∀ f, e ≠ .unwrittenRead f := by simp [NoOwnStop]
@[simp] theorem noOwnStop_refused (e : Refusal) : NoOwnStop (.refused e) ↔ ∀ why, e ≠ .notAnInstruction why := by
  simp [NoOwnStop]

theorem NoOwnStop.andThen {r : StepResult} {f : State → StepResult} (h : NoOwnStop r) (k : ∀ t, NoOwnStop (f t)) :
    NoOwnStop (andThen r f) := by
  cases r with
  | next t => exact k t
  | fault e => exact h
  | refused e => exact h

theorem NoOwnStop.onNext {r : StepResult} (f : State → State) (h : NoOwnStop r) : NoOwnStop (onNext r f) := by
  cases r with
  | next t => exact noOwnStop_next _
  | fault e => exact h
  | refused e => exact h

/-- Ending a step of SEQ can add the handler's fault only. -/
theorem NoOwnStop.seqCommit {r : StepResult} (s : State) (h : NoOwnStop r) : NoOwnStop (seqCommit s r) :=
  h.andThen fun t => by split <;> simp

theorem recordWrite_noOwnStop (f : Transfer → Transfer) (s : State) : NoOwnStop (recordWrite f s) :=
  (noOwnStop_next _).seqCommit s

theorem issue_noOwnStop (row : Row) (arg : Word) (n : Nat) (s : State) : NoOwnStop (issue row arg n s) := by
  unfold issue
  split <;> simp

theorem exec_noOwnStop (i : Instr) (s : State) : NoOwnStop (exec i s) := by
  rw [exec_eq]
  exact (issue_noOwnStop _ _ _ _).onNext _

/-- A session read stops only where the register is unwritten. -/
theorem withSession_noOwnStop {α : Type} {f : SessReg} {v : Option α} {k : α → StepResult} (hv : v.isSome = true)
    (hk : ∀ a, NoOwnStop (k a)) : NoOwnStop (withSession f v k) := by
  obtain ⟨a, rfl⟩ := Option.isSome_iff_exists.mp hv
  exact hk a

theorem putWithRca_noOwnStop {s : State} (mk : Word → Instr) (next : SeqPoint) (h : s.session.rca.isSome = true) :
    NoOwnStop (putWithRca mk next s) :=
  withSession_noOwnStop h fun _ => noOwnStop_next _

theorem afterReply_noOwnStop (s : State) {k : StepResult} (hk : NoOwnStop k) : NoOwnStop (afterReply s k) := by
  unfold afterReply
  split
  · exact hk
  · exact noOwnStop_next _

theorem beginShortRead_noOwnStop (bytes : Nat) (s : State) : NoOwnStop (beginShortRead bytes s) := by
  unfold beginShortRead
  split
  · simp
  · split <;> simp

theorem stepConfigDrain_noOwnStop (s : State) : NoOwnStop (stepConfigDrain s) := by
  simp only [stepConfigDrain]
  split
  · simp
  · split <;> simp

/-- The sequencer's action where the session registers its state reads are written. -/
theorem seqStep_noOwnStop {s : State} (h : sessionOk s = true) : NoOwnStop (seqStep s) := by
  obtain ⟨hocr, hrca, hscr⟩ := written_of_sessionOk h
  unfold seqStep
  cases hpc : s.seq.pc with
  | off | powerUp | speed | ready | failed => exact noOwnStop_next _
  | idleIssue | probeIssue | voltPrefix | voltCond | identIssue | addrIssue | configLen | configScr | widthSet =>
    exact noOwnStop_next _
  | idleReply => simp only [stepIdleReply]; split <;> simp
  | probeReply =>
    simp only [stepProbeReply]
    split
    · simp
    · simp
    · simp
    · split <;> simp
  | voltPrefixReply => exact afterReply_noOwnStop s (by dsimp only; split <;> simp)
  | voltCondReply | readyReply => 
    refine afterReply_noOwnStop s ?_
    split
    · simp
    · split <;> simp
  | identReply | addrReply | csdReply | selectReply | configLenReply | configPrefixReply | configScrReply
  | widthPrefixReply | widthSetReply => exact afterReply_noOwnStop s (noOwnStop_next _)
  | capacity =>
    exact withSession_noOwnStop (hocr (by simp [hpc, SeqPoint.state, SeqState.rank])) fun _ => by split <;> simp
  | csdIssue | selectIssue | configPrefix | readyIssue =>
    exact putWithRca_noOwnStop _ _ (hrca (by simp [hpc, SeqPoint.state, SeqState.rank]))
  | widthPrefix =>
    refine withSession_noOwnStop (hscr (by simp [hpc, SeqPoint.state, SeqState.rank])) fun _ => ?_
    split
    · exact putWithRca_noOwnStop _ _ (hrca (by simp [hpc, SeqPoint.state, SeqState.rank]))
    · simp
  | configPrime => exact (beginShortRead_noOwnStop _ _).onNext _
  | configDrain => exact stepConfigDrain_noOwnStop s

theorem waitPoll_noOwnStop (left : Nat) (s : State) : NoOwnStop (waitPoll left s) := by
  simp only [waitPoll]
  split
  · simp
  · split <;> simp

theorem bringUp_noOwnStop (rate : Nat) (s : State) : NoOwnStop (bringUp rate s) := by
  unfold bringUp
  split
  · simp
  · split <;> simp

theorem startTransfer_noOwnStop (multi : Bool) (s : State) : NoOwnStop (startTransfer multi s) := by
  unfold startTransfer
  split
  · exact (recordWrite_noOwnStop _ _).andThen fun _ => (recordWrite_noOwnStop _ _).andThen fun _ =>
      (recordWrite_noOwnStop _ _).andThen fun _ => (recordWrite_noOwnStop _ _).andThen fun _ => recordWrite_noOwnStop _ _
  · simp

theorem memRead_noOwnStop (addr : Word) (width : Nat) (s : State) : NoOwnStop (memRead addr width s) := by
  unfold memRead
  split <;> simp

theorem memWrite_noOwnStop (addr : Word) (width : Nat) (v : Word) (s : State) : NoOwnStop (memWrite addr width v s) := by
  unfold memWrite
  split <;> simp

theorem doCall_noOwnStop (op : HostOp) (s : State) : NoOwnStop (doCall op s) := by
  cases op with
  | bringUp rate => exact bringUp_noOwnStop rate s
  | startTransfer multi => exact startTransfer_noOwnStop multi s
  | shortRead bytes => exact beginShortRead_noOwnStop bytes s
  | memRead addr width => exact memRead_noOwnStop addr width s
  | memWrite addr width v => exact memWrite_noOwnStop addr width v s
  | waitTransfer | readRecord | routeIrq => exact noOwnStop_next _

/-- A call from another context is refused as Concurrent or is a call. -/
theorem otherContext_eq (op : HostOp) (s : State) :
    otherContext op s = .refused .concurrent ∨ otherContext op s = doCall op s := by
  cases op with
  | startTransfer multi => simp only [otherContext, doCall]; split <;> simp
  | waitTransfer | shortRead | readRecord => exact .inl rfl
  | bringUp | memRead | memWrite | routeIrq => exact .inr rfl

theorem otherContext_noOwnStop (op : HostOp) (s : State) : NoOwnStop (otherContext op s) := by
  rcases otherContext_eq op s with h | h
  · simp [h]
  · exact h ▸ doCall_noOwnStop op s

theorem seqOwn_noOwnStop {s : State} (h : sessionOk s = true) : NoOwnStop (seqOwn s) := by
  unfold seqOwn
  split
  · exact waitPoll_noOwnStop _ s
  · exact seqStep_noOwnStop h

theorem seqOrCall_noOwnStop {s : State} (h : sessionOk s = true) : NoOwnStop (seqOrCall s) := by
  unfold seqOrCall
  split
  · exact seqOwn_noOwnStop h
  · split
    · split
      · exact seqOwn_noOwnStop h
      · exact otherContext_noOwnStop _ _
    · exact doCall_noOwnStop _ _

/-- A word that decodes is not refused as no instruction. -/
theorem runWord_noOwnStop {s : State} {w : CmdWord} {i : Instr}
    (h : decode s.params.layout s.engine.appPending w = .instr i) : NoOwnStop (runWord w s) := by
  simp only [runWord, h]
  exact exec_noOwnStop i _

theorem seqAction_noOwnStop {s : State} (h : safeInv s = true) : NoOwnStop (seqAction s) := by
  obtain ⟨hstd, -, hslot, hprefix, hsess, -⟩ := safeInv_iff.mp h
  unfold seqAction
  split
  next w hw =>
    obtain ⟨i, rfl, happ⟩ := waiting_word hslot hprefix hw
    refine runWord_noOwnStop (i := i) ?_
    rw [happ, layout_of_standard hstd]
    exact decode_encode i
  next => exact seqOrCall_noOwnStop hsess

/-- The handler's CMD12 decodes in the default layout (60_exceptions.md R273). -/
theorem irqStop_noOwnStop {s : State} (h : standard s = true) : NoOwnStop (irqStop s) := by
  have hd : decode s.params.layout false (encode s.params.layout (.cmd12 0)) = .instr (.cmd12 0) := by
    rw [layout_of_standard h]
    exact decode_encode (.cmd12 0)
  simp only [irqStop, hd]
  exact (exec_noOwnStop _ _).onNext _

theorem irqAction_noOwnStop {s : State} (h : standard s = true) : NoOwnStop (irqAction s) := by
  unfold irqAction
  split
  case h_3 => exact irqStop_noOwnStop h
  all_goals exact noOwnStop_next _

theorem irqEnter_noOwnStop (s : State) : NoOwnStop (irqEnter s) := by
  unfold irqEnter
  split <;> simp

/-- Settles O44: SEQ's part by the invariant's session and slot, the handler's by its own word. -/
theorem safeStatesNeverStopOnTheBlocksOwnWords : Obligations.SafeStatesNeverStopOnTheBlocksOwnWords := by
  unfold Obligations.SafeStatesNeverStopOnTheBlocksOwnWords
  intro s h
  have hstd : standard s = true := (safeInv_iff.mp h).1
  show NoOwnStop (step s)
  unfold step
  split
  case h_1 =>
    split
    · exact irqEnter_noOwnStop s
    · exact (seqAction_noOwnStop h).seqCommit s
  all_goals exact irqAction_noOwnStop hstd

end Sys2Proof.Machine
end

section
/-! PROOFS. What a stretch of a step's accesses accounts for (20_memory.md R75, R81; log 19): the relation, and one lemma
per access. -/

namespace Sys2Proof.Machine

/-- A later stretch's last write to a register is the newest; where it has none the earlier stretch's is. -/
theorem lastWritten_append (r : Reg) (a b : List Event) :
    lastWritten r (a ++ b) = (lastWritten r a).or (lastWritten r b) := by
  induction a with
  | nil => rfl
  | cons e a ih =>
    cases e with
    | write q v => by_cases hq : q = r <;> simp [lastWritten, hq, ih]
    | read | pin | delay | record => exact ih

/-- From `s` to `t` the trace grew by `new`, the parameters stayed, a register that ENV does not answer holds what it held
or the word `new` last wrote to it, and a sticky flag dropped only where `new` wrote its bit to ICR. -/
structure Accounts (new : List Event) (s t : State) : Prop where
  params : t.params = s.params
  trace : t.trace = new ++ s.trace
  unwritten : ∀ r, r.port = none → lastWritten r new = none → t.regs.get r = s.regs.get r
  written : ∀ r v, r.port = none → lastWritten r new = some v →
    t.regs.get r = v ∨ t.regs.get r = v &&& s.params.layout.rw.get r
  sticky : ∀ n, s.regs.star.getLsbD n = true → s.params.layout.rw.icr.getLsbD n = true →
    t.regs.star.getLsbD n = true ∨ ∃ v, .write .icr v ∈ new ∧ v.getLsbD n = true

/-- Two stretches, one after the other. -/
theorem Accounts.trans {a b : List Event} {s t u : State} (h : Accounts a s t) (k : Accounts b t u) :
    Accounts (b ++ a) s u where
  params := k.params.trans h.params
  trace := by rw [k.trace, h.trace, List.append_assoc]
  unwritten r hr hl := by
    rw [lastWritten_append, Option.or_eq_none_iff] at hl
    rw [k.unwritten r hr hl.1, h.unwritten r hr hl.2]
  written r v hr hl := by
    rw [lastWritten_append] at hl
    cases hb : lastWritten r b with
    | some w =>
      obtain rfl : w = v := by simpa [hb] using hl
      exact h.params ▸ k.written r w hr hb
    | none =>
      rw [k.unwritten r hr hb]
      exact h.written r v hr (by simpa [hb] using hl)
  sticky n hs hl := by
    rcases h.sticky n hs hl with ht | ⟨v, hv, hn⟩
    · rcases k.sticky n ht (h.params ▸ hl) with hu | ⟨v, hv, hn⟩
      · exact .inl hu
      · exact .inr ⟨v, List.mem_append_left _ hv, hn⟩
    · exact .inr ⟨v, List.mem_append_right _ hv, hn⟩

/-- Some stretch of accesses leads from `s` to `t`. -/
def Accounted (s t : State) : Prop := ∃ new, Accounts new s t

theorem Accounted.trans {s t u : State} (h : Accounted s t) (k : Accounted t u) : Accounted s u := by
  obtain ⟨a, ha⟩ := h
  obtain ⟨b, hb⟩ := k
  exact ⟨b ++ a, ha.trans hb⟩

/-- Without an access: no register changes but those ENV answers, and no sticky flag drops. -/
theorem Accounted.of_no_access {s t : State} (hp : t.params = s.params) (ht : t.trace = s.trace)
    (hr : ∀ q, q.port = none → t.regs.get q = s.regs.get q)
    (hs : ∀ n, s.regs.star.getLsbD n = true → s.params.layout.rw.icr.getLsbD n = true → t.regs.star.getLsbD n = true) :
    Accounted s t := by
  refine ⟨[], hp, ht, fun q hq _ => hr q hq, fun r v _ h => ?_, fun n h hl => .inl (hs n h hl)⟩
  cases h

/-- A change of other parts of the state needs no access. -/
theorem Accounted.same {s t : State} (hp : t.params = s.params) (hr : t.regs = s.regs) (ht : t.trace = s.trace) :
    Accounted s t :=
  .of_no_access hp ht (fun q _ => by rw [hr]) fun n h _ => by rw [hr, h]

theorem Accounted.refl (s : State) : Accounted s s := .same rfl rfl rfl

theorem setSession_accounted (v : Session) (s : State) : Accounted s (s.setSession v) := .same rfl rfl rfl
theorem setXfer_accounted (v : Transfer) (s : State) : Accounted s (s.setXfer v) := .same rfl rfl rfl
theorem setEngine_accounted (v : Engine) (s : State) : Accounted s (s.setEngine v) := .same rfl rfl rfl
theorem setLoop_accounted (v : LoopCount) (s : State) : Accounted s (s.setLoop v) := .same rfl rfl rfl
theorem setSeq_accounted (v : Seq) (s : State) : Accounted s (s.setSeq v) := .same rfl rfl rfl
theorem setPc_accounted (p : SeqPoint) (s : State) : Accounted s (s.setPc p) := .same rfl rfl rfl
theorem setIrq_accounted (v : Irq) (s : State) : Accounted s (s.setIrq v) := .same rfl rfl rfl
theorem setCalls_accounted (v : List HostCall) (s : State) : Accounted s (s.setCalls v) := .same rfl rfl rfl
theorem setEnv_accounted (v : Env) (s : State) : Accounted s (s.setEnv v) := .same rfl rfl rfl

/-- An event that is no write accounts for nothing more. -/
theorem emit_accounted {e : Event} (s : State) (h : ∀ r, lastWritten r [e] = none) : Accounted s (s.emit e) :=
  ⟨[e], rfl, rfl, fun _ _ _ => rfl, fun r v _ hv => absurd hv (by simp [h r]), fun _ hs _ => .inl hs⟩

/-! ### Preemption points and accesses -/

theorem star_ne_of_port {q : Reg} (h : q.port = none) : q ≠ .star := by rintro rfl; cases h

/-- What ENV shows keeps the sticky flags that STAR holds (10_state.md R60). -/
theorem starShown_sticky (w : Word) (s : State) {n : Nat} (h : s.regs.star.getLsbD n = true)
    (hl : s.params.layout.rw.icr.getLsbD n = true) : (starShown w s).getLsbD n = true := by
  simp [starShown, stickyFlags, h, hl]

theorem point_accounted (s : State) : Accounted s (point s) := by
  obtain ⟨w, hw⟩ := point_regs s
  refine .of_no_access (point_params s) (point_trace s) (fun r hr => ?_) fun n hs hl => ?_
  · rw [hw, Regs.get_set_ne _ _ (star_ne_of_port hr)]
  · simp only [point]
    split
    · exact starShown_sticky _ s hs hl
    · exact hs

/-- A register takes ENV's answer; the answer of STAR keeps its sticky flags. -/
theorem answer_accounted {r : Reg} {p : EnvPort} (hp : r.port = some p) (s : State) :
    Accounted s ((envNext p s).setRegs (s.regs.set r (readValue r s))) := by
  refine .of_no_access (envNext_params p s) (envNext_trace p s) (fun q hq => ?_) fun n hs hl => ?_
  · exact Regs.get_set_ne _ _ (by rintro rfl; simp [hp] at hq)
  · show ((s.regs.set r (readValue r s)).get .star).getLsbD n = true
    by_cases hr : r = .star
    · subst hr
      simpa [readValue, hp] using starShown_sticky _ s hs hl
    · rw [Regs.get_set_ne _ _ (Ne.symm hr)]
      exact hs

theorem readNext_accounted (r : Reg) (s : State) : Accounted s (readNext r s) := by
  simp only [readNext]
  refine .trans (.trans ?_ (emit_accounted _ fun _ => rfl)) (point_accounted _)
  split
  case h_1 p hp => exact answer_accounted hp s
  case h_2 => exact .refl s

theorem Regs.get_set (g : Regs) (r q : Reg) (w : Word) : (g.set r w).get q = if r = q then w else g.get q := by
  by_cases h : r = q
  · subst h; simp
  · simp [h, Regs.get_set_ne _ _ (Ne.symm h)]

/-- A whole write leaves a register that ENV does not answer with the word less its reserved bits, or as it was. -/
theorem Regs.store_get (l : Layout) (g : Regs) (r : Reg) (v : Word) {q : Reg} (hq : q.port = none) :
    (g.store l r v).get q = if r = q then v &&& l.rw.get q else g.get q := by
  unfold Regs.store
  split
  case h_1 p hp =>
    have : r ≠ q := by rintro rfl; simp [hp] at hq
    simp [this]
  case h_2 =>
    split
    case isTrue h =>
      subst h
      refine (Regs.get_set_ne (g.set .icr (v &&& l.rw.icr)) _ (star_ne_of_port hq)).trans ?_
      rw [Regs.get_set]
      split
      · next h => subst h; rfl
      · rfl
    case isFalse =>
      rw [Regs.get_set]
      split
      · next h => rw [h]
      · rfl

/-- A whole write clears the flags of STAR that are written 1 in ICR (10_state.md R61). -/
theorem Regs.store_star (l : Layout) (g : Regs) (r : Reg) (v : Word) :
    (g.store l r v).star = if r = .icr then g.star &&& ~~~(v &&& stickyFlags l) else g.star := by
  unfold Regs.store
  split
  case h_1 p hp =>
    have : r ≠ .icr := by rintro rfl; cases hp
    simp [this]
  case h_2 hp =>
    split
    · rfl
    · exact Regs.get_set_ne g _ (star_ne_of_port hp).symm

/-- A write accounts for the registers it leaves, if they are the written word's and what it clears of STAR is in ICR. -/
theorem write_accounted {r : Reg} {v : Word} {g : Regs} (s : State)
    (hsame : ∀ q, q.port = none → q ≠ r → g.get q = s.regs.get q)
    (hword : r.port = none → g.get r = v ∨ g.get r = v &&& s.params.layout.rw.get r)
    (hstar : ∀ n, s.regs.star.getLsbD n = true → g.star.getLsbD n = true ∨ r = .icr ∧ v.getLsbD n = true) :
    Accounted s ((s.setRegs g).emit (.write r v)) := by
  refine ⟨[.write r v], rfl, rfl, fun q hq hl => hsame q hq ?_, fun q w hq hl => ?_, fun n hs _ => ?_⟩
  · rintro rfl
    simp [lastWritten] at hl
  · by_cases hr : r = q
    · subst hr
      obtain rfl : v = w := by simpa [lastWritten] using hl
      exact hword hq
    · simp [lastWritten, hr] at hl
  · rcases hstar n hs with h | ⟨rfl, h⟩
    · exact .inl h
    · exact .inr ⟨v, by simp, h⟩

theorem writeReg_accounted (r : Reg) (v : Word) (s : State) : Accounted s (writeReg r v s) := by
  refine .trans (write_accounted s (fun q hq hne => ?_) (fun hr => ?_) fun n hs => ?_) (point_accounted _)
  · simp [Regs.store_get _ _ _ _ hq, hne.symm]
  · simp [Regs.store_get _ _ _ _ hr]
  · rw [Regs.store_star]
    by_cases hr : r = .icr
    · cases hv : v.getLsbD n with
      | false =>
        have hn : decide (n < 32) = true := decide_eq_true (BitVec.lt_of_getLsbD hs)
        simp only [hr, if_true, BitVec.getLsbD_and, BitVec.getLsbD_not, hs, hv, hn, Bool.false_and, Bool.not_false,
          Bool.and_true, true_or]
      | true => exact .inr ⟨hr, rfl⟩
    · simp [hr, hs]

theorem rmw_accounted {r : Reg} (hp : r.port = none) (mask v : Word) (s : State) : Accounted s (rmw r mask v s) := by
  simp only [rmw]
  refine .trans (.trans (readNext_accounted r s) ?_) (point_accounted _)
  refine write_accounted _ (fun q _ hne => Regs.get_set_ne _ _ hne) (fun _ => by simp) fun n hs => .inl ?_
  exact (congrArg (·.getLsbD n) (Regs.get_set_ne _ _ (star_ne_of_port hp).symm)).trans hs

end Sys2Proof.Machine
end

section
/-! PROOFS. Every operation, sequencer action, call and handler phase is made of accesses and of changes elsewhere, so every
step is accounted for (O47). -/

namespace Sys2Proof.Machine

/-! ### The engine and the data path -/

theorem send_accounted (row : Row) (arg : Word) (s : State) : Accounted s (send row arg s) :=
  (writeReg_accounted .argr arg s).trans (rmw_accounted rfl _ _ _)

theorem pollNext_accounted (s : State) : Accounted s (pollNext s) :=
  (readNext_accounted .star s).trans <| (setSession_accounted _ _).trans (setLoop_accounted _ _)

theorem leaveLoop_accounted (flags : Word) (s : State) : Accounted s (leaveLoop flags s) :=
  (writeReg_accounted .icr flags s).trans (setLoop_accounted _ _)

theorem awaitRow_accounted (row : Row) (n : Nat) (s : State) : Accounted s (awaitRow row n s).2 := by
  obtain ⟨stop, m, h⟩ := awaitRow_state row n s
  have hpolls : Accounted s (poll stop m s).2 :=
    poll_induct stop (fun u h => h.trans (pollNext_accounted u)) m s (.refl s)
  rw [h]
  exact hpolls.trans (leaveLoop_accounted _ _)

theorem readResponse_accounted (kind : RespKind) (s : State) : Accounted s (readResponse kind s) := by
  cases kind with
  | none => exact .refl s
  | short => exact (readNext_accounted .resp1 s).trans (setEngine_accounted _ _)
  | long =>
    exact ((readNext_accounted .resp1 s).trans (readNext_accounted .resp2 _)).trans
      (((readNext_accounted .resp3 _).trans (readNext_accounted .resp4 _)).trans (setEngine_accounted _ _))

theorem command_accounted (row : Row) (arg : Word) (n : Nat) (s : State) : Accounted s (command row arg n s) := by
  have hwait := (send_accounted row arg s).trans (awaitRow_accounted row n _)
  simp only [command]
  refine Accounted.trans ?_ (setEngine_accounted _ _)
  split
  · exact hwait.trans (readResponse_accounted _ _)
  · exact hwait

theorem keepResponse_accounted (f : Words4 → Session → Session) (s : State) : Accounted s (keepResponse f s) := by
  unfold keepResponse
  split
  · exact setSession_accounted _ s
  all_goals exact .refl s

theorem storeOf_accounted (i : Instr) (s : State) : Accounted s (storeOf i s) := by
  cases i with
  | cmd1 | cmd2 | cmd3 | cmd9 | acmd41 => simp only [storeOf, keepResponse_accounted]
  | cmd0 | cmd7 | cmd8 | cmd12 | cmd13 | cmd16 | cmd55 | acmd6 | acmd51 => exact .refl s

theorem pullPair_accounted (s : State) : Accounted s (pullPair s).2 :=
  (readNext_accounted .fifor s).trans (readNext_accounted .fifor _)

/-- What a property of a drain's end needs: every poll and every pair of FIFO words keeps it. -/
theorem drainLoop_induct {P : State → Prop} (hpoll : ∀ s, P s → P (pollNext s))
    (hpair : ∀ ws s, P s → P (countWords ws (pullPair s).2)) (e m : Nat) (ws : List Word) (s : State) (h : P s) :
    P (drainLoop e m ws s).2.2 := by
  induction m generalizing ws s with
  | zero => exact h
  | succ m ih =>
    simp only [drainLoop]
    split
    · exact hpoll s h
    · split
      · split
        · exact hpair _ _ (hpoll s h)
        · exact ih _ _ (hpair _ _ (hpoll s h))
      · split
        · exact hpoll s h
        · exact ih _ _ (hpoll s h)

theorem drain_accounted (e m : Nat) (s : State) : Accounted s (drain e m s).2.2 := by
  refine Accounted.trans ?_ (leaveLoop_accounted _ _)
  refine drainLoop_induct (fun u h => h.trans (pollNext_accounted u)) (fun ws u h => ?_) e m [] _
    (setLoop_accounted _ s)
  exact (h.trans (pullPair_accounted u)).trans (setLoop_accounted _ _)

/-! ### Results -/

/-- If the result is a next state, it is accounted for. -/
def NextAccounted (s : State) (r : StepResult) : Prop := ∀ t, r = .next t → Accounted s t

theorem NextAccounted.next {s t : State} (h : Accounted s t) : NextAccounted s (.next t) := by
  rintro u ⟨⟩
  exact h

theorem NextAccounted.refused (s : State) (e : Refusal) : NextAccounted s (.refused e) := fun _ h => by cases h

/-- A change elsewhere before the operation. -/
theorem NextAccounted.after {s u : State} {r : StepResult} (h : Accounted s u) (k : NextAccounted u r) : NextAccounted s r :=
  fun t ht => h.trans (k t ht)

theorem NextAccounted.andThen {s : State} {r : StepResult} {f : State → StepResult} (h : NextAccounted s r)
    (k : ∀ u, NextAccounted u (f u)) : NextAccounted s (andThen r f) := by
  intro t ht
  obtain ⟨u, hu, hf⟩ := andThen_eq_next ht
  exact (h u hu).trans (k u t hf)

theorem NextAccounted.onNext {s : State} {r : StepResult} {f : State → State} (h : NextAccounted s r)
    (k : ∀ u, Accounted u (f u)) : NextAccounted s (onNext r f) := by
  intro t ht
  obtain ⟨u, hu, rfl⟩ := onNext_eq_next ht
  exact (h u hu).trans (k u)

theorem NextAccounted.seqCommit {s u : State} {r : StepResult} (h : NextAccounted s r) : NextAccounted s (seqCommit u r) :=
  fun t ht => h t (seqCommit_eq_next ht)

theorem NextAccounted.withSession {α : Type} {s : State} {f : SessReg} {v : Option α} {k : α → StepResult}
    (h : ∀ a, NextAccounted s (k a)) : NextAccounted s (withSession f v k) := by
  intro t ht
  obtain ⟨a, -, hk⟩ := withSession_eq_next ht
  exact h a t hk

theorem recordWrite_accounted (f : Transfer → Transfer) (s : State) : NextAccounted s (recordWrite f s) := by
  intro t ht
  rw [recordWrite_eq_next ht]
  exact (setXfer_accounted _ s).trans (point_accounted _)

theorem exec_accounted (i : Instr) (s : State) : NextAccounted s (exec i s) := by
  rw [exec_eq]
  refine NextAccounted.onNext (fun t ht => ?_) (storeOf_accounted i)
  obtain ⟨-, rfl⟩ := issue_eq_next ht
  exact command_accounted _ _ _ s

/-! ### The sequencer -/

theorem fail_accounted (e : ErrKind) (s : State) : Accounted s (fail e s) :=
  (setSession_accounted _ s).trans (setPc_accounted _ _)

theorem putWord_accounted (i : Instr) (p : SeqPoint) (s : State) : NextAccounted s (putWord i p s) :=
  .next ((setEngine_accounted _ s).trans (setPc_accounted _ _))

theorem putWithRca_accounted (mk : Word → Instr) (p : SeqPoint) (s : State) : NextAccounted s (putWithRca mk p s) :=
  .withSession fun _ => putWord_accounted _ p s

theorem afterReply_accounted {s : State} {k : StepResult} (h : NextAccounted s k) : NextAccounted s (afterReply s k) := by
  unfold afterReply
  split
  · exact h
  · exact .next (fail_accounted _ s)

/-- The pin service makes events that are no accesses. -/
theorem configurePins_accounted (s : State) : Accounted s (configurePins s) := by
  have pins : ∀ (l : List PinLine) (u : State),
      Accounted u (l.foldl (fun t l => t.emit (.pin l t.params.pinAf)) u) := by
    intro l
    induction l with
    | nil => exact .refl
    | cons line l ih => exact fun u => (emit_accounted u fun _ => rfl).trans (ih _)
  exact pins _ s

theorem stepPowerUp_accounted (s : State) : NextAccounted s (stepPowerUp s) :=
  .next ((configurePins_accounted s).trans <| (rmw_accounted rfl _ _ _).trans <| (rmw_accounted rfl _ _ _).trans <|
    (emit_accounted _ fun _ => rfl).trans (setPc_accounted _ _))

theorem stepIdleReply_accounted (s : State) : NextAccounted s (stepIdleReply s) := by
  unfold stepIdleReply
  split
  · exact .next (setPc_accounted _ s)
  · exact .next (fail_accounted _ s)

theorem stepProbeReply_accounted (trial : Nat) (s : State) : NextAccounted s (stepProbeReply trial s) := by
  unfold stepProbeReply
  split
  · exact .next ((setSession_accounted _ s).trans (setPc_accounted _ _))
  · exact .next ((setSession_accounted _ s).trans (fail_accounted _ _))
  · exact .next ((setSession_accounted _ s).trans (fail_accounted _ _))
  · split
    · exact .next (setPc_accounted _ s)
    · exact .next (fail_accounted _ s)

theorem stepVoltPrefixReply_accounted (round : Nat) (s : State) : NextAccounted s (stepVoltPrefixReply round s) := by
  refine afterReply_accounted ?_
  have hread := readNext_accounted .respcmdr s
  dsimp only
  split
  · exact .next (hread.trans (setPc_accounted _ _))
  · exact .next (hread.trans (fail_accounted _ _))

theorem stepVoltCondReply_accounted (round : Nat) (s : State) : NextAccounted s (stepVoltCondReply round s) := by
  refine afterReply_accounted ?_
  split
  · exact .next (setPc_accounted _ s)
  · split
    · exact .next (setPc_accounted _ s)
    · exact .next (fail_accounted _ s)

theorem stepCapacity_accounted (s : State) : NextAccounted s (stepCapacity s) := by
  refine .withSession fun ocr => ?_
  split
  · exact .next (fail_accounted _ s)
  · exact .next (setPc_accounted _ s)

theorem beginShortRead_accounted (bytes : Nat) (s : State) : NextAccounted s (beginShortRead bytes s) := by
  unfold beginShortRead
  split
  · exact .refused s _
  · split
    · exact .refused s _
    · exact .next ((writeReg_accounted _ _ _).trans ((writeReg_accounted _ _ _).trans (writeReg_accounted _ _ _)))

theorem stepConfigDrain_accounted (s : State) : NextAccounted s (stepConfigDrain s) := by
  have hdrain := drain_accounted scrWords s.params.drainBudget s
  simp only [stepConfigDrain]
  split
  · exact .refused s _
  · split
    · exact .next (hdrain.trans <| (setSession_accounted _ _).trans (setPc_accounted _ _))
    · exact .next (hdrain.trans (fail_accounted _ _))
    · exact .next (hdrain.trans (fail_accounted _ _))

theorem stepWidthPrefix_accounted (s : State) : NextAccounted s (stepWidthPrefix s) := by
  refine .withSession fun scr => ?_
  split
  · exact putWithRca_accounted _ _ s
  · exact .next (fail_accounted _ s)

theorem stepReadyReply_accounted (query : Nat) (s : State) : NextAccounted s (stepReadyReply query s) := by
  refine afterReply_accounted ?_
  split
  · exact .next ((setSession_accounted _ s).trans (setPc_accounted _ _))
  · split
    · exact .next (setPc_accounted _ s)
    · exact .next (fail_accounted _ s)

theorem seqStep_accounted (s : State) : NextAccounted s (seqStep s) := by
  unfold seqStep
  cases s.seq.pc with
  | off | ready | failed => exact .next (point_accounted s)
  | idleIssue | probeIssue | voltPrefix | voltCond | identIssue | addrIssue | configLen | configScr | widthSet =>
    exact putWord_accounted _ _ s
  | csdIssue | selectIssue | configPrefix | readyIssue => exact putWithRca_accounted _ _ s
  | identReply | addrReply | csdReply | selectReply | configLenReply | configPrefixReply | configScrReply
  | widthPrefixReply | widthSetReply => exact afterReply_accounted (.next (setPc_accounted _ s))
  | powerUp => exact stepPowerUp_accounted s
  | idleReply => exact stepIdleReply_accounted s
  | probeReply trial => exact stepProbeReply_accounted trial s
  | voltPrefixReply round => exact stepVoltPrefixReply_accounted round s
  | voltCondReply round => exact stepVoltCondReply_accounted round s
  | capacity => exact stepCapacity_accounted s
  | configPrime => exact (beginShortRead_accounted _ s).onNext (setPc_accounted _)
  | configDrain => exact stepConfigDrain_accounted s
  | widthPrefix => exact stepWidthPrefix_accounted s
  | speed => exact .next ((rmw_accounted rfl _ _ s).trans (setPc_accounted _ _))
  | readyReply query => exact stepReadyReply_accounted query s

/-! ### HOST's calls -/

theorem recordSeen_accounted (f : RecField) (s : State) : Accounted s (recordSeen f s) :=
  (emit_accounted s fun _ => rfl).trans (point_accounted _)

theorem waitPoll_accounted (left : Nat) (s : State) : NextAccounted s (waitPoll left s) := by
  have hpoll := recordSeen_accounted .completed s
  simp only [waitPoll]
  split
  · exact .next (hpoll.trans <| (recordSeen_accounted .error _).trans <| (recordSeen_accounted .status _).trans <|
      setSeq_accounted _ _)
  · split
    · exact .next (hpoll.trans (setSeq_accounted _ _))
    · exact .next (hpoll.trans (setSeq_accounted _ _))

theorem bringUp_accounted (rate : Nat) (s : State) : NextAccounted s (bringUp rate s) := by
  unfold bringUp
  split
  · exact .refused s _
  · split
    · exact .next ((setSession_accounted _ s).trans <| (setSeq_accounted _ _).trans <| (setEngine_accounted _ _).trans <|
        setPc_accounted _ _)
    · exact .refused s _

theorem startTransfer_accounted (multi : Bool) (s : State) : NextAccounted s (startTransfer multi s) := by
  unfold startTransfer
  split
  · refine .after (setSeq_accounted _ s) ((recordWrite_accounted _ _).andThen fun _ => ?_)
    exact (recordWrite_accounted _ _).andThen fun _ => (recordWrite_accounted _ _).andThen fun _ =>
      (recordWrite_accounted _ _).andThen fun _ => recordWrite_accounted _ _
  · exact .refused s _

theorem readRecord_accounted (f : RecField) (s : State) : NextAccounted s (readRecord f s) :=
  .next ((emit_accounted s fun _ => rfl).trans <| (setEnv_accounted _ _).trans <| (setSeq_accounted _ _).trans <|
    point_accounted _)

theorem memRead_accounted (addr : Word) (width : Nat) (s : State) : NextAccounted s (memRead addr width s) := by
  unfold memRead
  split
  · exact .next (readNext_accounted _ s)
  · exact .refused s _

theorem memWrite_accounted (addr : Word) (width : Nat) (v : Word) (s : State) :
    NextAccounted s (memWrite addr width v s) := by
  unfold memWrite
  split
  · exact .next (writeReg_accounted _ _ s)
  · exact .refused s _

theorem routeIrq_accounted (s : State) : NextAccounted s (routeIrq s) :=
  .next ((setIrq_accounted _ s).trans (point_accounted _))

theorem doCall_accounted (op : HostOp) (s : State) : NextAccounted s (doCall op s) := by
  cases op with
  | bringUp rate => exact bringUp_accounted rate s
  | startTransfer multi => exact startTransfer_accounted multi s
  | waitTransfer => exact .next (setSeq_accounted _ s)
  | shortRead bytes => exact beginShortRead_accounted bytes s
  | memRead addr width => exact memRead_accounted addr width s
  | memWrite addr width v => exact memWrite_accounted addr width v s
  | readRecord f => exact readRecord_accounted f s
  | routeIrq => exact routeIrq_accounted s

theorem otherContext_accounted (op : HostOp) (s : State) : NextAccounted s (otherContext op s) := by
  rcases otherContext_eq op s with h | h
  · exact h ▸ .refused s _
  · exact h ▸ doCall_accounted op s

/-! ### The agents -/

theorem seqOwn_accounted (s : State) : NextAccounted s (seqOwn s) := by
  unfold seqOwn
  split
  · exact waitPoll_accounted _ s
  · exact seqStep_accounted s

theorem seqOrCall_accounted (s : State) : NextAccounted s (seqOrCall s) := by
  unfold seqOrCall
  split
  · exact seqOwn_accounted s
  · split
    · split
      · exact seqOwn_accounted s
      · exact .after (setCalls_accounted _ s) (otherContext_accounted _ _)
    · exact .after (setCalls_accounted _ s) (doCall_accounted _ _)

theorem runWord_accounted (w : CmdWord) (s : State) : NextAccounted s (runWord w s) := by
  unfold runWord
  split
  · exact .after (setEngine_accounted _ s) (exec_accounted _ _)
  · exact .refused s _

theorem seqAction_accounted (s : State) : NextAccounted s (seqAction s) := by
  unfold seqAction
  split
  · exact runWord_accounted _ s
  · exact seqOrCall_accounted s

theorem irqReturn_accounted (s : State) : Accounted s (irqReturn s) :=
  (setIrq_accounted _ s).trans (point_accounted _)

theorem dataEndPath_accounted (s : State) : Accounted s (dataEndPath s) :=
  (writeReg_accounted _ _ s).trans <| (rmw_accounted rfl _ _ _).trans <| (rmw_accounted rfl _ _ _).trans <|
    (writeReg_accounted _ _ _).trans <| (writeReg_accounted _ _ _).trans <| (writeReg_accounted _ _ _).trans <|
      setIrq_accounted _ _

theorem errorPath_accounted (st : Word) (s : State) : Accounted s (errorPath st s) :=
  (setXfer_accounted _ s).trans <| (writeReg_accounted _ _ _).trans <| (rmw_accounted rfl _ _ _).trans <|
    (setXfer_accounted _ _).trans (setIrq_accounted _ _)

theorem irqDispatch_accounted (s : State) : Accounted s (irqDispatch s) := by
  simp only [irqDispatch]
  refine (readNext_accounted .star s).trans ?_
  split
  · exact errorPath_accounted _ _
  · split
    · exact dataEndPath_accounted _
    · exact irqReturn_accounted _

theorem irqStop_accounted (s : State) : NextAccounted s (irqStop s) := by
  unfold irqStop
  split
  · exact .after (setEngine_accounted _ s) ((exec_accounted _ _).onNext fun _ => setIrq_accounted _ _)
  · exact .refused s _

theorem irqCollect_accounted (s : State) : Accounted s (irqCollect s) := by
  unfold irqCollect
  refine Accounted.trans ?_ (setIrq_accounted _ _)
  split
  · exact .refl s
  · exact setXfer_accounted _ s

theorem irqRelease_accounted (s : State) : Accounted s (irqRelease s) :=
  (setXfer_accounted _ s).trans <| (setXfer_accounted _ _).trans <| (setXfer_accounted _ _).trans (irqReturn_accounted _)

theorem irqAction_accounted (s : State) : NextAccounted s (irqAction s) := by
  unfold irqAction
  split
  · exact .next (.refl s)
  · exact .next (irqDispatch_accounted s)
  · exact irqStop_accounted s
  · exact .next (irqCollect_accounted s)
  · exact .next (irqRelease_accounted s)

theorem irqEnter_accounted (s : State) : NextAccounted s (irqEnter s) := by
  unfold irqEnter
  split
  · exact .next (setIrq_accounted _ s)
  · exact fun _ h => by cases h

theorem step_accounted (s : State) : NextAccounted s (step s) := by
  unfold step
  split
  case h_1 =>
    split
    · exact irqEnter_accounted s
    · exact (seqAction_accounted s).seqCommit
  all_goals exact irqAction_accounted s

/-- Settles O47: the accesses of the step account for what it changed. -/
theorem parametersFixedAndTraceGrows : Obligations.ParametersFixedAndTraceGrows := by
  unfold Obligations.ParametersFixedAndTraceGrows
  intro s t ht
  obtain ⟨new, h⟩ := step_accounted s t ht
  refine ⟨h.params, new, h.trace, fun r hr hne => ?_, fun n hs hdrop => ?_⟩
  · cases hl : lastWritten r new with
    | none => exact absurd (h.unwritten r hr hl) hne
    | some v => exact ⟨v, rfl, h.written r v hr hl⟩
  · obtain ⟨hstar, hicr⟩ : s.regs.star.getLsbD n = true ∧ s.params.layout.rw.icr.getLsbD n = true := by
      simpa using hs
    exact (h.sticky n hstar hicr).resolve_left (by simp [hdrop])

end Sys2Proof.Machine
end

section
/-! PROOFS. The elementary changes that a step is made of, and that every operation, sequencer action, call and handler phase
is a sequence of them: a property that each change keeps is kept by every step. -/

namespace Sys2Proof.Machine

/-- One elementary change by SEQ. A read-modify-write has a mask of RW fields in the default layout; a write of the record
comes with no transfer in flight, and never completes one. -/
inductive SeqMove : State → State → Prop
  | session (v : Session) (s : State) : SeqMove s (s.setSession v)
  | engine (v : Engine) (s : State) : SeqMove s (s.setEngine v)
  | loop (v : LoopCount) (s : State) : SeqMove s (s.setLoop v)
  | seq (v : Seq) (s : State) : SeqMove s (s.setSeq v)
  | calls (v : List HostCall) (s : State) : SeqMove s (s.setCalls v)
  | env (v : Env) (s : State) : SeqMove s (s.setEnv v)
  | irq (v : Irq) (s : State) : SeqMove s (s.setIrq v)
  | emit (e : Event) (s : State) : SeqMove s (s.emit e)
  | point (s : State) : SeqMove s (point s)
  | read (r : Reg) (s : State) : SeqMove s (readNext r s)
  | write (r : Reg) (v : Word) (s : State) : SeqMove s (writeReg r v s)
  | rmw {r : Reg} {mask : Word} (v : Word) {s : State} (hp : r.port = none)
      (hm : s.params.layout = standardLayout → mask &&& ~~~standardLayout.rw.get r = 0) : SeqMove s (rmw r mask v s)
  | record {x : Transfer} {s : State} (hfree : s.xfer.inFlight = false)
      (hx : x.completed = true → s.xfer.completed = true) : SeqMove s (s.setXfer x)

/-- One elementary change by either agent: IRQ may write the record at any time. -/
inductive Move : State → State → Prop
  | seq {s t : State} (h : SeqMove s t) : Move s t
  | xfer (v : Transfer) (s : State) : Move s (s.setXfer v)

/-- Changes by SEQ, one after the other. -/
abbrev SeqMoves : State → State → Prop := Relation.ReflTransGen SeqMove
/-- Changes by either agent, one after the other. -/
abbrev Moves : State → State → Prop := Relation.ReflTransGen Move

theorem SeqMoves.moves {s t : State} (h : SeqMoves s t) : Moves s t := Relation.ReflTransGen.mono (fun _ _ => Move.seq) _ _ h

/-- A property that every change keeps is kept by every sequence of changes. -/
theorem Moves.keeps {P : State → Prop} (hmove : ∀ s t, Move s t → P s → P t) {s t : State} (h : Moves s t) (hs : P s) :
    P t := by
  induction h with
  | refl => exact hs
  | tail _ hm ih => exact hmove _ _ hm ih

/-! ### The engine and the data path -/

theorem send_moves (row : Row) (arg : Word) (s : State) : SeqMoves s (send row arg s) :=
  .head (.write .argr arg s) <| .single <| .rmw _ rfl fun h => by
    rw [writeReg_params] at h
    rw [h]
    decide

theorem pollNext_moves (s : State) : SeqMoves s (pollNext s) :=
  .head (.read .star s) <| .head (.session _ _) <| .single (.loop _ _)

theorem leaveLoop_moves (flags : Word) (s : State) : SeqMoves s (leaveLoop flags s) :=
  .head (.write .icr flags s) <| .single (.loop _ _)

theorem awaitRow_moves (row : Row) (n : Nat) (s : State) : SeqMoves s (awaitRow row n s).2 := by
  obtain ⟨stop, m, h⟩ := awaitRow_state row n s
  have hpolls : SeqMoves s (poll stop m s).2 := poll_induct stop (fun u h => h.trans (pollNext_moves u)) m s .refl
  rw [h]
  exact hpolls.trans (leaveLoop_moves _ _)

theorem readResponse_moves (kind : RespKind) (s : State) : SeqMoves s (readResponse kind s) := by
  cases kind with
  | none => exact .refl
  | short => exact .head (.read .resp1 s) <| .single (.engine _ _)
  | long =>
    exact .head (.read .resp1 s) <| .head (.read .resp2 _) <| .head (.read .resp3 _) <| .head (.read .resp4 _) <|
      .single (.engine _ _)

theorem command_moves (row : Row) (arg : Word) (n : Nat) (s : State) : SeqMoves s (command row arg n s) := by
  have hwait := (send_moves row arg s).trans (awaitRow_moves row n _)
  simp only [command]
  refine .tail ?_ (.engine _ _)
  split
  · exact hwait.trans (readResponse_moves _ _)
  · exact hwait

theorem keepResponse_moves (f : Words4 → Session → Session) (s : State) : SeqMoves s (keepResponse f s) := by
  unfold keepResponse
  split
  · exact .single (.session _ s)
  all_goals exact .refl

theorem storeOf_moves (i : Instr) (s : State) : SeqMoves s (storeOf i s) := by
  cases i with
  | cmd1 | cmd2 | cmd3 | cmd9 | acmd41 => simp only [storeOf, keepResponse_moves]
  | cmd0 | cmd7 | cmd8 | cmd12 | cmd13 | cmd16 | cmd55 | acmd6 | acmd51 => exact .refl

theorem drain_moves (e m : Nat) (s : State) : SeqMoves s (drain e m s).2.2 := by
  refine Relation.ReflTransGen.trans ?_ (leaveLoop_moves _ _)
  refine drainLoop_induct (fun u h => h.trans (pollNext_moves u)) (fun ws u h => ?_) e m [] _ (.single (.loop _ s))
  exact h.trans (.head (.read .fifor u) <| .head (.read .fifor _) <| .single (.loop _ _))

/-! ### Results -/

/-- If the result is a next state, SEQ's changes lead to it. -/
def NextMoves (s : State) (r : StepResult) : Prop := ∀ t, r = .next t → SeqMoves s t

theorem NextMoves.next {s t : State} (h : SeqMoves s t) : NextMoves s (.next t) := by
  rintro u ⟨⟩
  exact h

theorem NextMoves.refused (s : State) (e : Refusal) : NextMoves s (.refused e) := fun _ h => by cases h

/-- A change before the operation. -/
theorem NextMoves.after {s u : State} {r : StepResult} (h : SeqMove s u) (k : NextMoves u r) : NextMoves s r :=
  fun t ht => .head h (k t ht)

theorem NextMoves.onNext {s : State} {r : StepResult} {f : State → State} (h : NextMoves s r)
    (k : ∀ u, SeqMoves u (f u)) : NextMoves s (onNext r f) := by
  intro t ht
  obtain ⟨u, hu, rfl⟩ := onNext_eq_next ht
  exact (h u hu).trans (k u)

theorem NextMoves.withSession {α : Type} {s : State} {f : SessReg} {v : Option α} {k : α → StepResult}
    (h : ∀ a, NextMoves s (k a)) : NextMoves s (withSession f v k) := by
  intro t ht
  obtain ⟨a, -, hk⟩ := withSession_eq_next ht
  exact h a t hk

theorem exec_moves (i : Instr) (s : State) : NextMoves s (exec i s) := by
  rw [exec_eq]
  refine NextMoves.onNext (fun t ht => ?_) (storeOf_moves i)
  obtain ⟨-, rfl⟩ := issue_eq_next ht
  exact command_moves _ _ _ s

/-! ### The sequencer -/

theorem setPc_move (p : SeqPoint) (s : State) : SeqMove s (s.setPc p) := .seq { s.seq with pc := p } s

theorem fail_moves (e : ErrKind) (s : State) : SeqMoves s (fail e s) :=
  .head (.session _ s) <| .single (setPc_move _ _)

theorem putWord_moves (i : Instr) (p : SeqPoint) (s : State) : NextMoves s (putWord i p s) :=
  .next <| .head (.engine _ s) <| .single (setPc_move _ _)

theorem putWithRca_moves (mk : Word → Instr) (p : SeqPoint) (s : State) : NextMoves s (putWithRca mk p s) :=
  .withSession fun _ => putWord_moves _ p s

theorem afterReply_moves {s : State} {k : StepResult} (h : NextMoves s k) : NextMoves s (afterReply s k) := by
  unfold afterReply
  split
  · exact h
  · exact .next (fail_moves _ s)

/-- The pin service makes events only. -/
theorem configurePins_moves (s : State) : SeqMoves s (configurePins s) := by
  have pins : ∀ (l : List PinLine) (u : State), SeqMoves u (l.foldl (fun t l => t.emit (.pin l t.params.pinAf)) u) := by
    intro l
    induction l with
    | nil => exact fun _ => .refl
    | cons line l ih => exact fun u => .head (.emit _ u) (ih _)
  exact pins _ s

@[simp] theorem configurePins_params (s : State) : (configurePins s).params = s.params := by
  simp only [configurePins, List.foldl_cons, List.foldl_nil, State.emit_params]

/-- The clock fields are RW bits of CLKCR (10_state.md R52). -/
theorem clkcr_move (v : Word) {s : State} {l : Layout} (hl : s.params.layout = l) :
    SeqMove s (rmw .clkcr (clkcrFields l) v s) :=
  .rmw v rfl fun h => by
    rw [← hl, h]
    decide

/-- The data-path enables are RW bits of MASKR (10_state.md R62). -/
theorem maskr_move (v : Word) {s : State} {l : Layout} (hl : s.params.layout = l) :
    SeqMove s (rmw .maskr (dataIrq l) v s) :=
  .rmw v rfl fun h => by
    rw [← hl, h]
    decide

theorem stepPowerUp_moves (s : State) : NextMoves s (stepPowerUp s) := by
  refine .next ((configurePins_moves s).trans <| .head (clkcr_move _ (by simp)) <| .head (.rmw _ rfl fun h => ?_) <|
    .head (.emit _ _) <| .single (setPc_move _ _))
  have hl : s.params.layout = standardLayout := by simpa using h
  rw [hl]
  decide

theorem stepIdleReply_moves (s : State) : NextMoves s (stepIdleReply s) := by
  unfold stepIdleReply
  split
  · exact .next (.single (setPc_move _ s))
  · exact .next (fail_moves _ s)

theorem stepProbeReply_moves (trial : Nat) (s : State) : NextMoves s (stepProbeReply trial s) := by
  unfold stepProbeReply
  split
  · exact .next <| .head (.session _ s) <| .single (setPc_move _ _)
  · exact .next <| .head (.session _ s) (fail_moves _ _)
  · exact .next <| .head (.session _ s) (fail_moves _ _)
  · split
    · exact .next (.single (setPc_move _ s))
    · exact .next (fail_moves _ s)

theorem stepVoltPrefixReply_moves (round : Nat) (s : State) : NextMoves s (stepVoltPrefixReply round s) := by
  refine afterReply_moves ?_
  dsimp only
  split
  · exact .next <| .head (.read .respcmdr s) <| .single (setPc_move _ _)
  · exact .next <| .head (.read .respcmdr s) (fail_moves _ _)

theorem stepVoltCondReply_moves (round : Nat) (s : State) : NextMoves s (stepVoltCondReply round s) := by
  refine afterReply_moves ?_
  split
  · exact .next (.single (setPc_move _ s))
  · split
    · exact .next (.single (setPc_move _ s))
    · exact .next (fail_moves _ s)

theorem stepCapacity_moves (s : State) : NextMoves s (stepCapacity s) := by
  refine .withSession fun ocr => ?_
  split
  · exact .next (fail_moves _ s)
  · exact .next (.single (setPc_move _ s))

theorem beginShortRead_moves (bytes : Nat) (s : State) : NextMoves s (beginShortRead bytes s) := by
  unfold beginShortRead
  split
  · exact .refused s _
  · split
    · exact .refused s _
    · exact .next <| .head (.write _ _ s) <| .head (.write _ _ _) <| .single (.write _ _ _)

theorem stepConfigDrain_moves (s : State) : NextMoves s (stepConfigDrain s) := by
  have hdrain := drain_moves scrWords s.params.drainBudget s
  simp only [stepConfigDrain]
  split
  · exact .refused s _
  · split
    · exact .next (hdrain.trans <| .head (.session _ _) <| .single (setPc_move _ _))
    · exact .next (hdrain.trans (fail_moves _ _))
    · exact .next (hdrain.trans (fail_moves _ _))

theorem stepWidthPrefix_moves (s : State) : NextMoves s (stepWidthPrefix s) := by
  refine .withSession fun scr => ?_
  split
  · exact putWithRca_moves _ _ s
  · exact .next (fail_moves _ s)

theorem stepReadyReply_moves (query : Nat) (s : State) : NextMoves s (stepReadyReply query s) := by
  refine afterReply_moves ?_
  split
  · exact .next <| .head (.session _ s) <| .single (setPc_move _ _)
  · split
    · exact .next (.single (setPc_move _ s))
    · exact .next (fail_moves _ s)

theorem seqStep_moves (s : State) : NextMoves s (seqStep s) := by
  unfold seqStep
  cases s.seq.pc with
  | off | ready | failed => exact .next (.single (.point s))
  | idleIssue | probeIssue | voltPrefix | voltCond | identIssue | addrIssue | configLen | configScr | widthSet =>
    exact putWord_moves _ _ s
  | csdIssue | selectIssue | configPrefix | readyIssue => exact putWithRca_moves _ _ s
  | identReply | addrReply | csdReply | selectReply | configLenReply | configPrefixReply | configScrReply
  | widthPrefixReply | widthSetReply => exact afterReply_moves (.next (.single (setPc_move _ s)))
  | powerUp => exact stepPowerUp_moves s
  | idleReply => exact stepIdleReply_moves s
  | probeReply trial => exact stepProbeReply_moves trial s
  | voltPrefixReply round => exact stepVoltPrefixReply_moves round s
  | voltCondReply round => exact stepVoltCondReply_moves round s
  | capacity => exact stepCapacity_moves s
  | configPrime => exact (beginShortRead_moves _ s).onNext fun u => .single (setPc_move _ u)
  | configDrain => exact stepConfigDrain_moves s
  | widthPrefix => exact stepWidthPrefix_moves s
  | speed => exact .next <| .head (clkcr_move _ rfl) <| .single (setPc_move _ _)
  | readyReply query => exact stepReadyReply_moves query s

/-! ### HOST's calls -/

theorem recordSeen_moves (f : RecField) (s : State) : SeqMoves s (recordSeen f s) :=
  .head (.emit _ s) <| .single (.point _)

theorem waitPoll_moves (left : Nat) (s : State) : NextMoves s (waitPoll left s) := by
  have hpoll := recordSeen_moves .completed s
  simp only [waitPoll]
  split
  · exact .next (hpoll.trans <| (recordSeen_moves .error _).trans <| (recordSeen_moves .status _).trans <|
      .single (.seq _ _))
  · split
    · exact .next (hpoll.tail (.seq _ _))
    · exact .next (hpoll.tail (.seq _ _))

theorem bringUp_moves (rate : Nat) (s : State) : NextMoves s (bringUp rate s) := by
  unfold bringUp
  split
  · exact .refused s _
  · split
    · exact .next <| .head (.session _ s) <| .head (.seq _ _) <| .head (.engine _ _) <| .single (setPc_move _ _)
    · exact .refused s _

/-- A record write of SEQ that does not complete the record, and what follows it. -/
theorem recordWrite_andThen_moves {f : Transfer → Transfer} {k : State → StepResult} {s : State}
    (hfree : s.xfer.inFlight = false) (hf : (f s.xfer).completed = true → s.xfer.completed = true)
    (hk : ∀ u, u.xfer = f s.xfer → NextMoves u (k u)) : NextMoves s (andThen (recordWrite f s) k) := by
  intro t ht
  obtain ⟨u, hu, hkt⟩ := andThen_eq_next ht
  obtain rfl := recordWrite_eq_next hu
  exact .head (.record hfree hf) <| .head (.point _) (hk _ (by simp) t hkt)

theorem startTransfer_moves (multi : Bool) (s : State) : NextMoves s (startTransfer multi s) := by
  unfold startTransfer
  split
  case isFalse => exact .refused s _
  case isTrue h =>
    have hfree : s.xfer.inFlight = false := by
      simp only [startAdmitted, Bool.and_eq_true, Bool.not_eq_true'] at h
      exact h.1.2
    refine .after (.seq { s.seq with acquired := false, startMulti := multi } s) ?_
    refine recordWrite_andThen_moves hfree (by simp) fun s1 h1 => ?_
    refine recordWrite_andThen_moves (by simp [h1, hfree]) (by simp) fun s2 h2 => ?_
    refine recordWrite_andThen_moves (by simp [h2, h1, hfree]) (by simp) fun s3 h3 => ?_
    refine recordWrite_andThen_moves (by simp [h3, h2, h1, hfree]) (by simp) fun s4 h4 => ?_
    intro t ht
    obtain rfl := recordWrite_eq_next ht
    exact .head (.record (by simp [h4, h3, h2, h1, hfree]) (by simp)) <| .single (.point _)

theorem readRecord_moves (f : RecField) (s : State) : NextMoves s (readRecord f s) :=
  .next <| .head (.emit _ s) <| .head (.env _ _) <| .head (.seq _ _) <| .single (.point _)

theorem memRead_moves (addr : Word) (width : Nat) (s : State) : NextMoves s (memRead addr width s) := by
  unfold memRead
  split
  · exact .next (.single (.read _ s))
  · exact .refused s _

theorem memWrite_moves (addr : Word) (width : Nat) (v : Word) (s : State) : NextMoves s (memWrite addr width v s) := by
  unfold memWrite
  split
  · exact .next (.single (.write _ _ s))
  · exact .refused s _

theorem doCall_moves (op : HostOp) (s : State) : NextMoves s (doCall op s) := by
  cases op with
  | bringUp rate => exact bringUp_moves rate s
  | startTransfer multi => exact startTransfer_moves multi s
  | waitTransfer => exact .next (.single (.seq _ s))
  | shortRead bytes => exact beginShortRead_moves bytes s
  | memRead addr width => exact memRead_moves addr width s
  | memWrite addr width v => exact memWrite_moves addr width v s
  | readRecord f => exact readRecord_moves f s
  | routeIrq => exact .next <| .head (.irq _ s) <| .single (.point _)

theorem otherContext_moves (op : HostOp) (s : State) : NextMoves s (otherContext op s) := by
  rcases otherContext_eq op s with h | h
  · exact h ▸ .refused s _
  · exact h ▸ doCall_moves op s

/-! ### The agents -/

theorem seqOwn_moves (s : State) : NextMoves s (seqOwn s) := by
  unfold seqOwn
  split
  · exact waitPoll_moves _ s
  · exact seqStep_moves s

theorem seqOrCall_moves (s : State) : NextMoves s (seqOrCall s) := by
  unfold seqOrCall
  split
  · exact seqOwn_moves s
  · split
    · split
      · exact seqOwn_moves s
      · exact .after (.calls _ s) (otherContext_moves _ _)
    · exact .after (.calls _ s) (doCall_moves _ _)

theorem seqAction_moves (s : State) : NextMoves s (seqAction s) := by
  unfold seqAction
  split
  · unfold runWord
    split
    · exact .after (.engine _ s) (exec_moves _ _)
    · exact .refused s _
  · exact seqOrCall_moves s

theorem irqReturn_moves (s : State) : SeqMoves s (irqReturn s) := .head (.irq _ s) <| .single (.point _)

/-- `data_end_path` writes no field of the record. -/
theorem dataEndPath_moves (s : State) : SeqMoves s (dataEndPath s) := by
  refine .head (.write _ _ s) <| .head (maskr_move _ (by simp)) <| .head (.rmw _ rfl fun h => ?_) <|
    .head (.write _ _ _) <| .head (.write _ _ _) <| .head (.write _ _ _) <| .single (.irq _ _)
  have hl : s.params.layout = standardLayout := by simpa using h
  rw [hl]
  decide

theorem errorPath_moves (st : Word) (s : State) : Moves s (errorPath st s) :=
  .head (.xfer _ s) <| .head (.seq (.write _ _ _)) <| .head (.seq (maskr_move _ (by simp))) <| .head (.xfer _ _) <|
    .single (.seq (.irq _ _))

theorem irqDispatch_moves (s : State) : Moves s (irqDispatch s) := by
  simp only [irqDispatch]
  refine .head (.seq (.read .star s)) ?_
  split
  · exact errorPath_moves _ _
  · split
    · exact (dataEndPath_moves _).moves
    · exact (irqReturn_moves _).moves

theorem irqStop_moves (s : State) : NextMoves s (irqStop s) := by
  unfold irqStop
  split
  · exact .after (.engine _ s) ((exec_moves _ _).onNext fun u => .single (.irq _ u))
  · exact .refused s _

theorem irqCollect_moves (s : State) : Moves s (irqCollect s) := by
  unfold irqCollect
  refine .tail ?_ (.seq (.irq _ _))
  split
  · exact .refl
  · exact .single (.xfer _ s)

theorem irqRelease_moves (s : State) : Moves s (irqRelease s) :=
  .head (.xfer _ s) <| .head (.xfer _ _) <| .head (.xfer _ _) (irqReturn_moves _).moves

/-- Where no handler runs the next state comes from the handler's entry or from SEQ's action. -/
theorem step_idle {s t : State} (hi : s.irq.phase = .idle) (h : step s = .next t) :
    t = s.setIrq { s.irq with latched := false, phase := .dispatch } ∨ seqAction s = .next t := by
  simp only [step, hi] at h
  split at h
  · unfold irqEnter at h
    split at h <;> cases h
    exact .inl rfl
  · exact .inr (seqCommit_eq_next h)

/-- A handler that runs makes the step. -/
theorem step_handler {s : State} (hi : s.irq.phase ≠ .idle) : step s = irqAction s := by
  unfold step
  split
  next h => exact absurd h hi
  all_goals rfl

/-- A step of SEQ, or the handler's entry, makes SEQ's changes only. -/
theorem step_idle_moves {s t : State} (hi : s.irq.phase = .idle) (h : step s = .next t) : SeqMoves s t := by
  rcases step_idle hi h with rfl | h
  · exact .single (.irq _ s)
  · exact seqAction_moves s t h

/-- Every step is a sequence of elementary changes. -/
theorem step_moves {s t : State} (h : step s = .next t) : Moves s t := by
  by_cases hi : s.irq.phase = .idle
  · exact (step_idle_moves hi h).moves
  · rw [step_handler hi, irqAction] at h
    split at h
    next hidle => exact absurd hidle hi
    · cases h
      exact irqDispatch_moves s
    · exact (irqStop_moves s t h).moves
    · cases h
      exact irqCollect_moves s
    · cases h
      exact irqRelease_moves s

end Sys2Proof.Machine
end

section
/-! PROOFS. No elementary change sets a reserved bit of a register (O45). -/

namespace Sys2Proof.Machine

theorem reservedClear_iff (l : Layout) (g : Regs) :
    g.reservedClear l = true ↔ ∀ r : Reg, r.port = none → g.get r &&& ~~~(l.rw.get r) = 0 := by
  simp only [Regs.reservedClear, List.all_eq_true, Bool.or_eq_true, beq_iff_eq]
  constructor
  · intro h r hp
    exact (h r (by cases r <;> simp [Reg.all])).resolve_left (by simp [hp])
  · intro h r _
    cases hp : r.port with
    | none => exact .inr (h r hp)
    | some p => exact .inl rfl

/-- A state of the default layout with no reserved bit set (10_state.md R64). -/
def ReservedClear (s : State) : Prop := standard s = true ∧ s.regs.reservedClear standardLayout = true

/-- The registers that ENV answers have no part in it. -/
theorem ReservedClear.of_get {s t : State} (h : ReservedClear s) (hp : t.params = s.params)
    (hr : ∀ q, q.port = none → t.regs.get q = s.regs.get q ∨ t.regs.get q &&& ~~~(standardLayout.rw.get q) = 0) :
    ReservedClear t := by
  refine ⟨by simpa [standard, hp] using h.1, (reservedClear_iff _ _).mpr fun q hq => ?_⟩
  rcases hr q hq with he | hz
  · rw [he]
    exact (reservedClear_iff _ _).mp h.2 q hq
  · exact hz

/-- A change elsewhere. -/
theorem ReservedClear.same {s t : State} (h : ReservedClear s) (hp : t.params = s.params) (hr : t.regs = s.regs) :
    ReservedClear t :=
  h.of_get hp fun _ _ => .inl (by rw [hr])

/-- A read-modify-write under a mask of RW bits sets no reserved bit where none was set. -/
theorem rmwWord_reserved {old mask v m : Word} (ho : old &&& ~~~m = 0) (hm : mask &&& ~~~m = 0) :
    rmwWord old mask v &&& ~~~m = 0 := by
  have hold : old &&& ~~~mask &&& ~~~m = 0 := by
    rw [BitVec.and_assoc, BitVec.and_comm (~~~mask), ← BitVec.and_assoc, ho]
    simp
  have hnew : v &&& mask &&& ~~~m = 0 := by simp [BitVec.and_assoc, hm]
  simp [rmwWord, BitVec.and_or_distrib_right, hold, hnew]

theorem writeReg_reservedClear (r : Reg) (v : Word) {s : State} (h : ReservedClear s) :
    ReservedClear (writeReg r v s) := by
  refine h.of_get (by simp) fun q hq => ?_
  obtain ⟨w, hw⟩ := writeReg_regs r v s
  rw [hw, Regs.get_set_ne _ _ (star_ne_of_port hq), Regs.store_get _ _ _ _ hq, layout_of_standard h.1]
  split
  · exact .inr (by simp [BitVec.and_assoc])
  · exact .inl rfl

theorem rmw_reservedClear {r : Reg} {mask : Word} (v : Word) {s : State} (hp : r.port = none)
    (hm : mask &&& ~~~standardLayout.rw.get r = 0) (h : ReservedClear s) : ReservedClear (rmw r mask v s) := by
  refine h.of_get (by simp) fun q hq => ?_
  obtain ⟨w, hw⟩ := rmw_regs hp mask v s
  rw [hw, Regs.get_set_ne _ _ (star_ne_of_port hq), Regs.get_set]
  split
  next hrq =>
    subst hrq
    exact .inr (rmwWord_reserved ((reservedClear_iff _ _).mp h.2 r hp) hm)
  · exact .inl rfl

theorem seqMove_reservedClear {s t : State} (hm : SeqMove s t) (h : ReservedClear s) : ReservedClear t := by
  cases hm with
  | session | engine | loop | seq | calls | env | irq | emit | record => exact h.same rfl rfl
  | point =>
    obtain ⟨w, hw⟩ := point_regs s
    exact h.of_get (by simp) fun q hq => .inl (by rw [hw, Regs.get_set_ne _ _ (star_ne_of_port hq)])
  | read r =>
    refine h.of_get (by simp) fun q hq => .inl ?_
    rw [readNext_get r q s (star_ne_of_port hq), if_neg]
    rintro ⟨rfl, hp⟩
    simp [hq] at hp
  | write r v => exact writeReg_reservedClear r v h
  | rmw v hp hmask => exact rmw_reservedClear v hp (hmask (layout_of_standard h.1)) h

/-- Settles O45: a step is a sequence of elementary changes, and none of them sets a reserved bit. -/
theorem reservedBitsStayClear : Obligations.ReservedBitsStayClear := by
  unfold Obligations.ReservedBitsStayClear
  intro s t hstd hclear hstep
  have hkeep : ∀ u v, Move u v → ReservedClear u → ReservedClear v := by
    intro u v hm hu
    cases hm with
    | seq hm => exact seqMove_reservedClear hm hu
    | xfer => exact hu.same rfl rfl
  exact (Moves.keeps hkeep (step_moves hstep) ⟨hstd, hclear⟩).2

end Sys2Proof.Machine
end

section
/-! PROOFS. Who writes the transfer record, and who each session register (O54): what every sequence of SEQ's changes says of
the record, and what each kind of step writes of the session. -/

namespace Sys2Proof.Machine

/-! ### The transfer record -/

/-- A record in flight is kept, and none becomes completed (60_exceptions.md R275, R278). -/
def RecordKept (s t : State) : Prop :=
  (s.xfer.inFlight = true → t.xfer = s.xfer) ∧ (t.xfer.completed = true → s.xfer.completed = true)

theorem RecordKept.of_eq {s t : State} (h : t.xfer = s.xfer) : RecordKept s t := ⟨fun _ => h, by rw [h]; exact id⟩

theorem RecordKept.trans {s t u : State} (h : RecordKept s t) (k : RecordKept t u) : RecordKept s u :=
  ⟨fun hs => (k.1 (h.1 hs ▸ hs)).trans (h.1 hs), fun hu => h.2 (k.2 hu)⟩

theorem seqMove_recordKept {s t : State} (h : SeqMove s t) : RecordKept s t := by
  cases h with
  | record hfree hx => exact ⟨by simp [hfree], hx⟩
  | session | engine | loop | seq | calls | env | irq | emit => exact .of_eq rfl
  | point | read | write | rmw => exact .of_eq (by simp)

theorem SeqMoves.recordKept {s t : State} (h : SeqMoves s t) : RecordKept s t := by
  induction h with
  | refl => exact .of_eq rfl
  | tail _ hm ih => exact ih.trans (seqMove_recordKept hm)

@[simp] theorem setPhase_session (p : IrqPhase) (s : State) : (setPhase p s).session = s.session := rfl
@[simp] theorem setPhase_xfer (p : IrqPhase) (s : State) : (setPhase p s).xfer = s.xfer := rfl

theorem irqDispatch_completed {s : State} (h : (irqDispatch s).xfer.completed = true) : s.xfer.completed = true := by
  simp only [irqDispatch] at h
  split at h
  · simpa [errorPath] using h
  · have hread := (SeqMoves.recordKept (.single (.read .star s))).2
    split at h
    · exact hread ((dataEndPath_moves _).recordKept.2 h)
    · exact hread ((irqReturn_moves _).recordKept.2 h)

theorem irqCollect_completed (s : State) : (irqCollect s).xfer.completed = s.xfer.completed := by
  unfold irqCollect
  split <;> rfl

/-- The handler's release alone completes a record (60_exceptions.md R275). -/
theorem release_of_completes {s t : State} (h : step s = .next t) (hs : s.xfer.completed = false)
    (ht : t.xfer.completed = true) : s.irq.phase = .release := by
  have hnot : ¬ (t.xfer.completed = true → s.xfer.completed = true) := by simp [hs, ht]
  by_cases hi : s.irq.phase = .idle
  · exact absurd (step_idle_moves hi h).recordKept.2 hnot
  · rw [step_handler hi, irqAction] at h
    split at h
    next hidle => exact absurd hidle hi
    · cases h
      exact absurd irqDispatch_completed hnot
    · exact absurd (irqStop_moves s t h).recordKept.2 hnot
    · cases h
      exact absurd (irqCollect_completed s ▸ id) hnot
    next hrelease => exact hrelease

/-! ### The session record: results -/

/-- From the session `x` only `last_status` has changed and, at the end of a BringUp, `result` and `diag_status`. -/
structure SessionEnds (x : Session) (t : State) : Prop where
  session : t.session = { x with
    result := t.session.result, diagStatus := t.session.diagStatus, lastStatus := t.session.lastStatus }
  result : t.session.result ≠ x.result → t.seq.pc = .ready ∨ ∃ e, t.seq.pc = .failed e
  diagStatus : t.session.diagStatus ≠ x.diagStatus → ∃ e, t.seq.pc = .failed e

theorem SessionEnds.of_eq {x : Session} {t : State} (h : t.session = x) : SessionEnds x t := by
  subst h
  exact ⟨rfl, fun h => absurd rfl h, fun h => absurd rfl h⟩

/-- What may precede: a change of `last_status` (40_engine.md R148). -/
theorem SessionEnds.after_polls {x : Session} {u t : State} (hu : u.session = { x with lastStatus := u.session.lastStatus })
    (h : SessionEnds u.session t) : SessionEnds x t := by
  rw [hu] at h
  exact ⟨h.session, h.result, h.diagStatus⟩

/-- The other registers are those of `x`. -/
theorem SessionEnds.frame {x : Session} {t : State} (h : SessionEnds x t) :
    t.session.cid = x.cid ∧ t.session.csd = x.csd ∧ t.session.rca = x.rca ∧ t.session.ocr = x.ocr
      ∧ t.session.scrRaw = x.scrRaw ∧ t.session.scr = x.scr ∧ t.session.version2 = x.version2 := by
  rw [h.session]
  exact ⟨rfl, rfl, rfl, rfl, rfl, rfl, rfl⟩

theorem fail_sessionEnds (e : ErrKind) (s : State) : SessionEnds s.session (fail e s) :=
  ⟨rfl, fun _ => .inr ⟨e, rfl⟩, fun _ => ⟨e, rfl⟩⟩

theorem becomeReady_sessionEnds (s : State) : SessionEnds s.session (becomeReady s) :=
  ⟨rfl, fun _ => .inl rfl, fun h => absurd rfl h⟩

/-- If the result is a next state, the session of `s` only ended on the way there. -/
def NextEnds (s : State) (r : StepResult) : Prop := ∀ t, r = .next t → SessionEnds s.session t

theorem NextEnds.next {s t : State} (h : SessionEnds s.session t) : NextEnds s (.next t) := by
  rintro u ⟨⟩
  exact h

theorem NextEnds.of_eq {s t : State} (h : t.session = s.session) : NextEnds s (.next t) := .next (.of_eq h)

theorem NextEnds.refused (s : State) (e : Refusal) : NextEnds s (.refused e) := fun _ h => by cases h

theorem NextEnds.withSession {α : Type} {s : State} {f : SessReg} {v : Option α} {k : α → StepResult}
    (h : ∀ a, NextEnds s (k a)) : NextEnds s (withSession f v k) := by
  intro t ht
  obtain ⟨a, -, hk⟩ := withSession_eq_next ht
  exact h a t hk

theorem fail_nextEnds (e : ErrKind) (s : State) : NextEnds s (.next (fail e s)) := .next (fail_sessionEnds e s)

theorem putWithRca_nextEnds (mk : Word → Instr) (p : SeqPoint) (s : State) : NextEnds s (putWithRca mk p s) :=
  .withSession fun _ => .of_eq rfl

theorem afterReply_nextEnds {s : State} {k : StepResult} (h : NextEnds s k) : NextEnds s (afterReply s k) := by
  unfold afterReply
  split
  · exact h
  · exact fail_nextEnds _ s

/-! ### The session record: the sequencer -/

theorem stepIdleReply_nextEnds (s : State) : NextEnds s (stepIdleReply s) := by
  unfold stepIdleReply
  split
  · exact .of_eq rfl
  · exact fail_nextEnds _ s

theorem stepVoltPrefixReply_nextEnds (round : Nat) (s : State) : NextEnds s (stepVoltPrefixReply round s) := by
  refine afterReply_nextEnds ?_
  dsimp only
  split
  · exact .of_eq (by simp)
  · exact .next (readNext_session .respcmdr s ▸ fail_sessionEnds _ _)

theorem stepVoltCondReply_nextEnds (round : Nat) (s : State) : NextEnds s (stepVoltCondReply round s) := by
  refine afterReply_nextEnds ?_
  split
  · exact .of_eq rfl
  · split
    · exact .of_eq rfl
    · exact fail_nextEnds _ s

theorem stepCapacity_nextEnds (s : State) : NextEnds s (stepCapacity s) := by
  refine .withSession fun ocr => ?_
  split
  · exact fail_nextEnds _ s
  · exact .of_eq rfl

theorem beginShortRead_session {bytes : Nat} {s t : State} (h : beginShortRead bytes s = .next t) :
    t.session = s.session := by
  unfold beginShortRead at h
  split at h
  · cases h
  · split at h <;> cases h
    simp

theorem stepWidthPrefix_nextEnds (s : State) : NextEnds s (stepWidthPrefix s) := by
  refine .withSession fun scr => ?_
  split
  · exact putWithRca_nextEnds _ _ s
  · exact fail_nextEnds _ s

theorem stepReadyReply_nextEnds (query : Nat) (s : State) : NextEnds s (stepReadyReply query s) := by
  refine afterReply_nextEnds ?_
  split
  · exact .next (becomeReady_sessionEnds s)
  · split
    · exact .of_eq rfl
    · exact fail_nextEnds _ s

@[simp] theorem configurePins_session (s : State) : (configurePins s).session = s.session := by
  simp only [configurePins, List.foldl_cons, List.foldl_nil, State.emit_session]

/-- A drain changes `last_status` only. -/
theorem drain_session (e m : Nat) (s : State) :
    (drain e m s).2.2.session = { s.session with lastStatus := (drain e m s).2.2.session.lastStatus } := by
  have hloop : ∀ u : State, u = (drainLoop e m [] (startDrain s)).2.2 →
      u.session = { s.session with lastStatus := u.session.lastStatus } := by
    rintro u rfl
    refine drainLoop_induct (P := fun u => u.session = { s.session with lastStatus := u.session.lastStatus })
      (fun u hu => ?_) (fun ws u hu => ?_) e m [] _ rfl
    · rw [pollNext_session, hu]
    · simpa [countWords, pullPair] using hu
  simpa [drain] using hloop _ rfl

/-- VersionProbe's reply may write the version flag before it ends the session. -/
theorem stepProbeReply_session {trial : Nat} {s t : State} (h : stepProbeReply trial s = .next t) :
    ∃ v, SessionEnds { s.session with version2 := v } t := by
  unfold stepProbeReply at h
  split at h
  · cases h
    exact ⟨some true, .of_eq rfl⟩
  · cases h
    exact ⟨some false, fail_sessionEnds _ (s.setSession { s.session with version2 := some false })⟩
  · cases h
    exact ⟨some false, fail_sessionEnds _ (s.setSession { s.session with version2 := some false })⟩
  · refine ⟨s.session.version2, ?_⟩
    split at h <;> cases h
    · exact .of_eq rfl
    · exact fail_sessionEnds _ s

/-- ConfigurationRetrieval's drain may write the SCR. -/
theorem stepConfigDrain_session {s t : State} (h : stepConfigDrain s = .next t) :
    ∃ v w, SessionEnds { s.session with scrRaw := v, scr := w } t := by
  have hdrain := drain_session scrWords s.params.drainBudget s
  have hfail (e : ErrKind) := (fail_sessionEnds e (drain scrWords s.params.drainBudget s).2.2).after_polls hdrain
  simp only [stepConfigDrain] at h
  split at h
  · cases h
  · split at h <;> cases h
    next w0 w1 _ _ _ =>
      refine ⟨some ⟨w0, w1⟩, some (scrCorrect w0 w1), ?_⟩
      refine SessionEnds.after_polls (u := (storeScr w0 w1 (drain scrWords s.params.drainBudget s).2.2)) ?_ (.of_eq rfl)
      simp only [storeScr, State.setSession_session]
      rw [hdrain]
    · exact ⟨s.session.scrRaw, s.session.scr, hfail _⟩
    · exact ⟨s.session.scrRaw, s.session.scr, hfail _⟩

/-- What a command word stores: the register its rule names and `last_status` (42_commands.md, 40_engine.md R148). -/
structure Stores (i : Instr) (x y : Session) : Prop where
  cid : y.cid ≠ x.cid → ∃ a, i = .cmd2 a
  csd : y.csd ≠ x.csd → ∃ a, i = .cmd9 a
  rca : y.rca ≠ x.rca → ∃ a, i = .cmd3 a
  ocr : y.ocr ≠ x.ocr → ∃ a, i = .acmd41 a ∨ i = .cmd1 a
  kept : y = { x with cid := y.cid, csd := y.csd, rca := y.rca, ocr := y.ocr, lastStatus := y.lastStatus }

theorem keepResponse_session (f : Words4 → Session → Session) (s : State) :
    (keepResponse f s).session = s.session ∨ (keepResponse f s).session = f s.engine.reply.resp s.session := by
  unfold keepResponse
  split
  · exact .inr rfl
  all_goals exact .inl rfl

theorem storeOf_stores (i : Instr) (s : State) : Stores i s.session (storeOf i s).session := by
  have hsame : Stores i s.session s.session := ⟨by simp, by simp, by simp, by simp, rfl⟩
  cases i with
  | cmd0 | cmd7 | cmd8 | cmd12 | cmd13 | cmd16 | cmd55 | acmd6 | acmd51 => exact hsame
  | cmd1 | cmd2 | cmd3 | cmd9 | acmd41 =>
    simp only [storeOf]
    generalize hf : keepResponse _ s = t
    obtain h | h := hf ▸ keepResponse_session _ s
    · exact h ▸ hsame
    · rw [h]
      constructor <;> simp

theorem exec_stores {i : Instr} {s t : State} (h : exec i s = .next t) : Stores i s.session t.session := by
  rw [exec_eq] at h
  obtain ⟨u, hu, rfl⟩ := onNext_eq_next h
  obtain ⟨-, rfl⟩ := issue_eq_next hu
  have hkept := (command_kept i.row i.arg (budgetOf i s.params) s).session
  have hstores := storeOf_stores i (command i.row i.arg (budgetOf i s.params) s)
  rw [hkept] at hstores
  exact ⟨hstores.cid, hstores.csd, hstores.rca, hstores.ocr, hstores.kept⟩

/-- CMD12 stores no register (42_commands.md R187). -/
theorem Stores.of_cmd12 {a : Word} {x y : Session} (h : Stores (.cmd12 a) x y) :
    y = { x with lastStatus := y.lastStatus } := by
  have hcid : y.cid = x.cid := by_contra fun hne => by simpa using h.cid hne
  have hcsd : y.csd = x.csd := by_contra fun hne => by simpa using h.csd hne
  have hrca : y.rca = x.rca := by_contra fun hne => by simpa using h.rca hne
  have hocr : y.ocr = x.ocr := by_contra fun hne => by simpa using h.ocr hne
  have hkept := h.kept
  rwa [hcid, hcsd, hrca, hocr] at hkept

/-! ### The session record: a whole step -/

/-- What a step writes of the session, by the kind of step. -/
inductive SessionStep (s t : State) : Prop
  /-- no register but those of a BringUp's end -/
  | ends (h : SessionEnds s.session t)
  /-- the version flag -/
  | probe (n : Nat) (v : Option Bool) (hpc : s.seq.pc = .probeReply n)
      (h : SessionEnds { s.session with version2 := v } t)
  /-- the SCR -/
  | drain (v : Option Words2) (w : Option DWord) (hpc : s.seq.pc = .configDrain)
      (h : SessionEnds { s.session with scrRaw := v, scr := w } t)
  /-- the register of the word in the slot -/
  | word (w : CmdWord) (i : Instr) (hw : s.engine.slot = some w)
      (hi : decode s.params.layout s.engine.appPending w = .instr i) (h : Stores i s.session t.session)
  /-- all of them: a new session begins -/
  | begins (h : t.seq.pc = .powerUp)

theorem seqStep_session {s t : State} (h : seqStep s = .next t) : SessionStep s t := by
  have hends : NextEnds s (seqStep s) → SessionStep s t := fun k => .ends (k t h)
  unfold seqStep at h hends
  cases hpc : s.seq.pc <;> simp only [hpc] at h hends
  case off | ready | failed => exact hends (.of_eq (by simp))
  case idleIssue | probeIssue | voltPrefix | voltCond | identIssue | addrIssue | configLen | configScr | widthSet =>
    exact hends (.of_eq rfl)
  case csdIssue | selectIssue | configPrefix | readyIssue => exact hends (putWithRca_nextEnds _ _ s)
  case identReply | addrReply | csdReply | selectReply | configLenReply | configPrefixReply | configScrReply
    | widthPrefixReply | widthSetReply => exact hends (afterReply_nextEnds (.of_eq rfl))
  case powerUp => exact hends (.of_eq (by simp))
  case idleReply => exact hends (stepIdleReply_nextEnds s)
  case probeReply n =>
    obtain ⟨v, hv⟩ := stepProbeReply_session h
    exact .probe n v hpc hv
  case voltPrefixReply round => exact hends (stepVoltPrefixReply_nextEnds round s)
  case voltCondReply round => exact hends (stepVoltCondReply_nextEnds round s)
  case capacity => exact hends (stepCapacity_nextEnds s)
  case configPrime =>
    obtain ⟨u, hu, rfl⟩ := onNext_eq_next h
    have hu := beginShortRead_session hu
    exact .ends (.of_eq hu)
  case configDrain =>
    obtain ⟨v, w, hv⟩ := stepConfigDrain_session h
    exact .drain v w hpc hv
  case widthPrefix => exact hends (stepWidthPrefix_nextEnds s)
  case speed => exact hends (.of_eq (by simp))
  case readyReply query => exact hends (stepReadyReply_nextEnds query s)

theorem waitPoll_session {left : Nat} {s t : State} (h : waitPoll left s = .next t) : t.session = s.session := by
  simp only [waitPoll] at h
  split at h
  · cases h
    simp [recordSeen]
  · split at h <;> cases h <;> simp [recordSeen]

theorem startTransfer_session {multi : Bool} {s t : State} (h : startTransfer multi s = .next t) :
    t.session = s.session := by
  unfold startTransfer at h
  split at h
  · obtain ⟨s1, h1, h⟩ := andThen_eq_next h
    obtain ⟨s2, h2, h⟩ := andThen_eq_next h
    obtain ⟨s3, h3, h⟩ := andThen_eq_next h
    obtain ⟨s4, h4, h⟩ := andThen_eq_next h
    simp [recordWrite_eq_next h, recordWrite_eq_next h4, recordWrite_eq_next h3, recordWrite_eq_next h2,
      recordWrite_eq_next h1]
  · cases h

/-- A BringUp that is admitted begins a session (10_state.md R69, 43_sequencer.md R210). -/
theorem bringUp_begins {rate : Nat} {s t : State} (h : bringUp rate s = .next t) :
    t.seq.pc = .powerUp ∧ t.session = Session.unwritten := by
  unfold bringUp at h
  split at h
  · cases h
  · split at h <;> cases h
    exact ⟨rfl, rfl⟩

/-- A call begins a session or leaves it alone. -/
theorem doCall_session {op : HostOp} {s t : State} (h : doCall op s = .next t) :
    t.seq.pc = .powerUp ∨ t.session = s.session := by
  cases op with
  | bringUp rate => exact .inl (bringUp_begins h).1
  | startTransfer multi => exact .inr (startTransfer_session h)
  | waitTransfer =>
    cases h
    exact .inr rfl
  | shortRead bytes => exact .inr (beginShortRead_session h)
  | memRead addr width =>
    simp only [doCall, memRead] at h
    split at h <;> cases h
    exact .inr (by simp)
  | memWrite addr width v =>
    simp only [doCall, memWrite] at h
    split at h <;> cases h
    exact .inr (by simp)
  | readRecord f =>
    cases h
    exact .inr (by simp)
  | routeIrq =>
    cases h
    exact .inr (by simp)

theorem seqOwn_session {s t : State} (h : seqOwn s = .next t) : SessionStep s t := by
  unfold seqOwn at h
  split at h
  · exact .ends (.of_eq (waitPoll_session h))
  · exact seqStep_session h

theorem seqOrCall_session {s t : State} (h : seqOrCall s = .next t) : SessionStep s t := by
  have hcall {op : HostOp} {rest : List HostCall} (h : doCall op (s.setCalls rest) = .next t) : SessionStep s t :=
    (doCall_session h).elim .begins fun h => .ends (.of_eq h)
  unfold seqOrCall at h
  split at h
  · exact seqOwn_session h
  next c rest _ =>
    split at h
    · split at h
      · exact seqOwn_session h
      · rcases otherContext_eq c.op (s.setCalls rest) with hr | hr
        · rw [hr] at h
          cases h
        · exact hcall (hr ▸ h)
    · exact hcall h

theorem seqAction_session {s t : State} (h : seqAction s = .next t) : SessionStep s t := by
  unfold seqAction at h
  split at h
  next w hw =>
    unfold runWord at h
    split at h
    next i hi => exact .word w i hw hi (exec_stores (s := fetched i s) h)
    next => cases h
  next => exact seqOrCall_session h

theorem irqDispatch_session (s : State) : (irqDispatch s).session = s.session := by
  simp only [irqDispatch]
  split
  · simp [errorPath]
  · split
    · simp [dataEndPath, dataEndWrites]
    · simp [irqReturn]

/-- The handler's CMD12 changes `last_status` only, in the default layout. -/
theorem irqStop_session {s t : State} (hstd : standard s = true) (h : irqStop s = .next t) : SessionEnds s.session t := by
  have hd : decode s.params.layout false (encode s.params.layout (.cmd12 0)) = .instr (.cmd12 0) := by
    rw [layout_of_standard hstd]
    exact decode_encode (.cmd12 0)
  simp only [irqStop, hd] at h
  obtain ⟨u, hu, rfl⟩ := onNext_eq_next h
  have hcmd := exec_stores hu
  rw [State.setEngine_session] at hcmd
  exact SessionEnds.after_polls hcmd.of_cmd12 (.of_eq rfl)

theorem irqCollect_session (s : State) : (irqCollect s).session = s.session := by
  unfold irqCollect
  split <;> rfl

theorem irqRelease_session (s : State) : (irqRelease s).session = s.session := by simp [irqRelease, irqReturn]

theorem step_session {s t : State} (hstd : standard s = true) (h : step s = .next t) : SessionStep s t := by
  by_cases hi : s.irq.phase = .idle
  · rcases step_idle hi h with rfl | h
    · exact .ends (.of_eq rfl)
    · exact seqAction_session h
  · rw [step_handler hi, irqAction] at h
    split at h
    next hidle => exact absurd hidle hi
    · cases h
      exact .ends (.of_eq (irqDispatch_session s))
    · exact .ends (irqStop_session hstd h)
    · cases h
      exact .ends (.of_eq (irqCollect_session s))
    · cases h
      exact .ends (.of_eq (irqRelease_session s))

/-! ### The words of a safe run -/

/-- In a safe run the word that waits is the one whose outcome the point takes. -/
theorem awaited_of_waiting {s : State} {w : CmdWord} {i : Instr} (hsafe : safeInv s = true)
    (hw : s.engine.slot = some w) (hi : decode s.params.layout s.engine.appPending w = .instr i) :
    s.seq.pc.awaited s.session.rca = some i := by
  obtain ⟨hstd, -, hslot, hprefix, -⟩ := safeInv_iff.mp hsafe
  simp only [slotOk, hw, beq_iff_eq, Option.map_eq_some_iff] at hslot
  obtain ⟨j, hj, rfl⟩ := hslot
  have happ : s.engine.appPending = j.row.app := by
    simpa [prefixOk, hj, running_of_awaited hj, hw] using hprefix
  rw [happ, layout_of_standard hstd, decode_encode] at hi
  rw [hj, Decoded.instr.inj hi]

/-- The point of a BringUp at which the word that stores a session register waits. -/
def storePoint (i : Instr) (p : SeqPoint) : Prop :=
  match i with
  | .cmd2 _ => p = .identReply
  | .cmd3 _ => p = .addrReply
  | .cmd9 _ => p = .csdReply
  | .acmd41 _ => ∃ n, p = .voltCondReply n
  | .cmd1 _ => False
  | .cmd0 _ | .cmd7 _ | .cmd8 _ | .cmd12 _ | .cmd13 _ | .cmd16 _ | .cmd55 _ | .acmd6 _ | .acmd51 _ => True

theorem storePoint_of_awaited {p : SeqPoint} {rca : Option Word} {i : Instr} (h : p.awaited rca = some i) :
    storePoint i p := by
  cases p with
  | csdReply | selectReply | configPrefixReply | widthPrefixReply | readyReply =>
    obtain ⟨a, -, rfl⟩ := Option.map_eq_some_iff.mp h
    simp [storePoint]
  | idleReply | probeReply | voltPrefixReply | voltCondReply | identReply | addrReply | configLenReply | configScrReply
  | widthSetReply =>
    cases h
    simp [storePoint]
  | _ => cases h

/-- What SEQ's state must be where a session register changes (the third clause of O54). -/
theorem session_writers {s t : State} (h : SessionStep s t) (hpc : t.seq.pc.state ≠ .powerUp) :
    (t.session.cid ≠ s.session.cid → (∃ w a, s.engine.slot = some w
        ∧ decode s.params.layout s.engine.appPending w = .instr (.cmd2 a)) ∧ (safeInv s = true → s.seq.pc = .identReply))
    ∧ (t.session.csd ≠ s.session.csd → (∃ w a, s.engine.slot = some w
        ∧ decode s.params.layout s.engine.appPending w = .instr (.cmd9 a)) ∧ (safeInv s = true → s.seq.pc = .csdReply))
    ∧ (t.session.rca ≠ s.session.rca → (∃ w a, s.engine.slot = some w
        ∧ decode s.params.layout s.engine.appPending w = .instr (.cmd3 a)) ∧ (safeInv s = true → s.seq.pc = .addrReply))
    ∧ (t.session.ocr ≠ s.session.ocr → (∃ w a, s.engine.slot = some w
        ∧ (decode s.params.layout s.engine.appPending w = .instr (.acmd41 a)
          ∨ decode s.params.layout s.engine.appPending w = .instr (.cmd1 a)))
        ∧ (safeInv s = true → ∃ n, s.seq.pc = .voltCondReply n))
    ∧ (t.session.scrRaw ≠ s.session.scrRaw ∨ t.session.scr ≠ s.session.scr → s.seq.pc = .configDrain)
    ∧ (t.session.version2 ≠ s.session.version2 → ∃ n, s.seq.pc = .probeReply n)
    ∧ (t.session.result ≠ s.session.result → t.seq.pc = .ready ∨ ∃ e, t.seq.pc = .failed e)
    ∧ (t.session.diagStatus ≠ s.session.diagStatus → ∃ e, t.seq.pc = .failed e) := by
  cases h with
  | ends h =>
    obtain ⟨hcid, hcsd, hrca, hocr, hraw, hscr, hver⟩ := h.frame
    exact ⟨absurd hcid, absurd hcsd, absurd hrca, absurd hocr, fun hne => hne.elim (absurd hraw) (absurd hscr), absurd hver,
      h.result, h.diagStatus⟩
  | probe n v hn h =>
    obtain ⟨hcid, hcsd, hrca, hocr, hraw, hscr, -⟩ := h.frame
    exact ⟨absurd hcid, absurd hcsd, absurd hrca, absurd hocr, fun hne => hne.elim (absurd hraw) (absurd hscr),
      fun _ => ⟨n, hn⟩, h.result, h.diagStatus⟩
  | drain v w hdrain h =>
    obtain ⟨hcid, hcsd, hrca, hocr, -, -, hver⟩ := h.frame
    exact ⟨absurd hcid, absurd hcsd, absurd hrca, absurd hocr, fun _ => hdrain, absurd hver, h.result, h.diagStatus⟩
  | word w i hw hi h =>
    have hpoint (hsafe : safeInv s = true) : storePoint i s.seq.pc := storePoint_of_awaited (awaited_of_waiting hsafe hw hi)
    obtain ⟨hcid, hcsd, hrca, hocr, hkept⟩ := h
    refine ⟨fun hne => ?_, fun hne => ?_, fun hne => ?_, fun hne => ?_, ?_⟩
    · obtain ⟨a, rfl⟩ := hcid hne
      exact ⟨⟨w, a, hw, hi⟩, hpoint⟩
    · obtain ⟨a, rfl⟩ := hcsd hne
      exact ⟨⟨w, a, hw, hi⟩, hpoint⟩
    · obtain ⟨a, rfl⟩ := hrca hne
      exact ⟨⟨w, a, hw, hi⟩, hpoint⟩
    · obtain ⟨a, rfl | rfl⟩ := hocr hne
      · exact ⟨⟨w, a, hw, .inl hi⟩, hpoint⟩
      · exact ⟨⟨w, a, hw, .inr hi⟩, fun hsafe => (hpoint hsafe).elim⟩
    · rw [hkept]
      simp
  | begins h => exact absurd (by rw [h]; rfl) hpc

/-- Settles O54: the record by SEQ's changes and the handler's phases, the session by the kinds of step. -/
theorem recordWritersAreDisciplined : Obligations.RecordWritersAreDisciplined := by
  unfold Obligations.RecordWritersAreDisciplined
  exact ⟨fun s t h hi => (step_idle_moves hi h).recordKept.1, fun s t => release_of_completes,
    fun s t hstd h => session_writers (step_session hstd h)⟩

/-- Before the RCA's word has run the invariant has the RCA unwritten (43_sequencer.md R217). -/
theorem rca_unwritten_of_addr_waiting {s : State} (hs : sessionOk s = true) (hpc : s.seq.pc = .addrReply)
    (hw : s.engine.slot.isSome = true) : s.session.rca = none := by
  simp only [sessionOk, Bool.and_eq_true, Bool.or_eq_true, Bool.not_eq_true', Bool.or_eq_false_iff] at hs
  obtain ⟨⟨⟨-, hrca⟩, -⟩, -⟩ := hs
  simpa [hpc, hw] using hrca

/-- Settles O46: only the word of Addressing writes the RCA, and where it waits the RCA is unwritten. -/
theorem rcaIsImmutable : Obligations.RcaIsImmutable := by
  unfold Obligations.RcaIsImmutable
  intro s t rca hsafe hrca hstep hpc
  obtain ⟨hstd, -, -, -, hsess, -⟩ := safeInv_iff.mp hsafe
  obtain ⟨-, -, hwriter, -⟩ := session_writers (step_session hstd hstep) hpc
  by_contra hne
  obtain ⟨⟨w, a, hw, -⟩, haddr⟩ := hwriter (hrca ▸ hne)
  have hnone := rca_unwritten_of_addr_waiting hsess (haddr hsafe) (by simp [hw])
  rw [hrca] at hnone
  cases hnone

end Sys2Proof.Machine
end

section
/-! PROOFS. No step reads `diag_status` (O48): from states that differ in nothing else every operation gives results that
differ in nothing else. -/

namespace Sys2Proof.Machine

/-- The state with another `diag_status`. -/
def State.withDiag (d : Option Word) (s : State) : State := s.setSession { s.session with diagStatus := d }

section
variable (d : Option Word) (s : State)

@[simp] theorem State.withDiag_params : (s.withDiag d).params = s.params := rfl
@[simp] theorem State.withDiag_regs : (s.withDiag d).regs = s.regs := rfl
@[simp] theorem State.withDiag_session : (s.withDiag d).session = { s.session with diagStatus := d } := rfl
@[simp] theorem State.withDiag_xfer : (s.withDiag d).xfer = s.xfer := rfl
@[simp] theorem State.withDiag_engine : (s.withDiag d).engine = s.engine := rfl
@[simp] theorem State.withDiag_loop : (s.withDiag d).loop = s.loop := rfl
@[simp] theorem State.withDiag_seq : (s.withDiag d).seq = s.seq := rfl
@[simp] theorem State.withDiag_irq : (s.withDiag d).irq = s.irq := rfl
@[simp] theorem State.withDiag_calls : (s.withDiag d).calls = s.calls := rfl
@[simp] theorem State.withDiag_env : (s.withDiag d).env = s.env := rfl
@[simp] theorem State.withDiag_trace : (s.withDiag d).trace = s.trace := rfl

@[simp] theorem State.withDiag_setRegs (v : Regs) : (s.withDiag d).setRegs v = (s.setRegs v).withDiag d := rfl
@[simp] theorem State.withDiag_setXfer (v : Transfer) : (s.withDiag d).setXfer v = (s.setXfer v).withDiag d := rfl
@[simp] theorem State.withDiag_setEngine (v : Engine) : (s.withDiag d).setEngine v = (s.setEngine v).withDiag d := rfl
@[simp] theorem State.withDiag_setLoop (v : LoopCount) : (s.withDiag d).setLoop v = (s.setLoop v).withDiag d := rfl
@[simp] theorem State.withDiag_setSeq (v : Seq) : (s.withDiag d).setSeq v = (s.setSeq v).withDiag d := rfl
@[simp] theorem State.withDiag_setPc (v : SeqPoint) : (s.withDiag d).setPc v = (s.setPc v).withDiag d := rfl
@[simp] theorem State.withDiag_setIrq (v : Irq) : (s.withDiag d).setIrq v = (s.setIrq v).withDiag d := rfl
@[simp] theorem State.withDiag_setCalls (v : List HostCall) : (s.withDiag d).setCalls v = (s.setCalls v).withDiag d := rfl
@[simp] theorem State.withDiag_setEnv (v : Env) : (s.withDiag d).setEnv v = (s.setEnv v).withDiag d := rfl
@[simp] theorem State.withDiag_emit (e : Event) : (s.withDiag d).emit e = (s.emit e).withDiag d := rfl

/-! ### Accesses, the engine and the data path: each commutes with a change of `diag_status` -/

@[simp] theorem readValue_withDiag (r : Reg) : readValue r (s.withDiag d) = readValue r s := rfl
@[simp] theorem engineBusy_withDiag : engineBusy (s.withDiag d) = engineBusy s := rfl

@[simp] theorem envNext_withDiag (p : EnvPort) : envNext p (s.withDiag d) = (envNext p s).withDiag d := by
  simp only [envNext, State.withDiag_env]
  split <;> rfl

@[simp] theorem point_withDiag : point (s.withDiag d) = (point s).withDiag d := by
  have hc : (seqRuns (s.withDiag d) && canInterrupt (s.withDiag d)) = (seqRuns s && canInterrupt s) := rfl
  simp only [point, hc, envNext_withDiag]
  split <;> rfl

@[simp] theorem readNext_withDiag (r : Reg) : readNext r (s.withDiag d) = (readNext r s).withDiag d := by
  simp only [readNext, readValue_withDiag, envNext_withDiag]
  rw [← point_withDiag]
  split <;> rfl

@[simp] theorem writeReg_withDiag (r : Reg) (v : Word) : writeReg r v (s.withDiag d) = (writeReg r v s).withDiag d := by
  simp [writeReg]

@[simp] theorem rmw_withDiag (r : Reg) (mask v : Word) : rmw r mask v (s.withDiag d) = (rmw r mask v s).withDiag d := by
  simp [rmw]

@[simp] theorem send_withDiag (row : Row) (arg : Word) : send row arg (s.withDiag d) = (send row arg s).withDiag d := by
  simp [send]

@[simp] theorem pollNext_withDiag : pollNext (s.withDiag d) = (pollNext s).withDiag d := by
  simp only [pollNext, readNext_withDiag, readValue_withDiag]
  rfl

@[simp] theorem leaveLoop_withDiag (flags : Word) : leaveLoop flags (s.withDiag d) = (leaveLoop flags s).withDiag d := by
  simp [leaveLoop]

@[simp] theorem poll_withDiag (stop : Word → Bool) (n : Nat) :
    poll stop n (s.withDiag d) = ((poll stop n s).1, (poll stop n s).2.withDiag d) := by
  induction n generalizing s with
  | zero => rfl
  | succ n ih =>
    simp only [poll, readValue_withDiag, pollNext_withDiag]
    split
    · rfl
    · exact ih _

@[simp] theorem awaitRow_withDiag (row : Row) (n : Nat) :
    awaitRow row n (s.withDiag d) = ((awaitRow row n s).1, (awaitRow row n s).2.withDiag d) := by
  unfold awaitRow
  split <;> simp [awaitSent, awaitResponse]

@[simp] theorem setResp_withDiag (q : Words4) : setResp q (s.withDiag d) = (setResp q s).withDiag d := rfl
@[simp] theorem setOut_withDiag (o : EngOutcome) : setOut o (s.withDiag d) = (setOut o s).withDiag d := rfl

@[simp] theorem readResponse_withDiag (kind : RespKind) :
    readResponse kind (s.withDiag d) = (readResponse kind s).withDiag d := by
  cases kind with
  | none => rfl
  | short | long => simp [readResponse]

@[simp] theorem command_withDiag (row : Row) (arg : Word) (n : Nat) :
    command row arg n (s.withDiag d) = (command row arg n s).withDiag d := by
  simp only [command, send_withDiag, awaitRow_withDiag, readResponse_withDiag, State.withDiag_params,
    ← apply_ite (State.withDiag d), setOut_withDiag]

@[simp] theorem storeOf_withDiag (i : Instr) : storeOf i (s.withDiag d) = (storeOf i s).withDiag d := by
  cases i with
  | cmd0 | cmd7 | cmd8 | cmd12 | cmd13 | cmd16 | cmd55 | acmd6 | acmd51 => rfl
  | cmd1 | cmd2 | cmd3 | cmd9 | acmd41 =>
    simp only [storeOf, keepResponse, State.withDiag_engine]
    split <;> rfl

@[simp] theorem drainLoop_withDiag (e m : Nat) (ws : List Word) :
    drainLoop e m ws (s.withDiag d)
      = ((drainLoop e m ws s).1, (drainLoop e m ws s).2.1, (drainLoop e m ws s).2.2.withDiag d) := by
  have hcount (ws : List Word) (u : State) : countWords ws (u.withDiag d) = (countWords ws u).withDiag d := rfl
  induction m generalizing ws s with
  | zero => rfl
  | succ m ih =>
    simp only [drainLoop, pullPair, readValue_withDiag, pollNext_withDiag, readNext_withDiag, hcount, State.withDiag_params, ih]
    split_ifs <;> simp only [*, if_true, if_false]

@[simp] theorem drain_withDiag (e m : Nat) :
    drain e m (s.withDiag d) = ((drain e m s).1, (drain e m s).2.1, (drain e m s).2.2.withDiag d) := by
  have hstart : startDrain (s.withDiag d) = (startDrain s).withDiag d := rfl
  simp [drain, hstart]

end

/-! ### Results -/

/-- The results are the same fault, the same refusal, or next states that differ at most in `diag_status`. -/
def SameNext (r r' : StepResult) : Prop := ∃ d, r' = onNext r (State.withDiag d)

theorem SameNext.next (d : Option Word) (t : State) : SameNext (.next t) (.next (t.withDiag d)) := ⟨d, rfl⟩

theorem SameNext.refl (r : StepResult) : SameNext r r := by
  cases r with
  | next t => exact .next t.session.diagStatus t
  | fault e => exact ⟨none, rfl⟩
  | refused e => exact ⟨none, rfl⟩

/-- A test that both results make, branch by branch. -/
theorem SameNext.ite {c : Prop} {i i' : Decidable c} {a a' b b' : StepResult} (ha : c → SameNext a a')
    (hb : ¬c → SameNext b b') : SameNext (@ite _ c i a b) (@ite _ c i' a' b') := by
  by_cases h : c
  · simpa only [h, if_true] using ha h
  · simpa only [h, if_false] using hb h

/-- An operation that does not read `diag_status`. -/
def Blind (f : State → StepResult) : Prop := ∀ d s, SameNext (f s) (f (s.withDiag d))

theorem SameNext.andThen {r r' : StepResult} {f : State → StepResult} (h : SameNext r r') (k : Blind f) :
    SameNext (andThen r f) (andThen r' f) := by
  obtain ⟨d, rfl⟩ := h
  cases r with
  | next t => exact k d t
  | fault e => exact .refl _
  | refused e => exact .refl _

theorem SameNext.onNext {r r' : StepResult} {f : State → State} (h : SameNext r r')
    (k : ∀ d s, f (s.withDiag d) = (f s).withDiag d) : SameNext (onNext r f) (onNext r' f) := by
  obtain ⟨d, rfl⟩ := h
  cases r with
  | next t => exact ⟨d, congrArg _ (k d t)⟩
  | fault e => exact .refl _
  | refused e => exact .refl _

theorem SameNext.seqCommit {r r' : StepResult} (d : Option Word) (s : State) (h : SameNext r r') :
    SameNext (seqCommit s r) (seqCommit (s.withDiag d) r') :=
  h.andThen (f := fun t => if canInterrupt s && t.irq.latched && !t.xfer.inFlight then .fault .handlerOutsideTransfer
    else .next t) fun d t => .ite (fun _ => .refl _) fun _ => .next d t

theorem SameNext.withSession {α : Type} {f : SessReg} {v : Option α} {k k' : α → StepResult}
    (h : ∀ a, SameNext (k a) (k' a)) : SameNext (withSession f v k) (withSession f v k') := by
  cases v with
  | none => exact .refl _
  | some a => exact h a

theorem recordWrite_blind (f : Transfer → Transfer) : Blind (recordWrite f) := fun d s => by
  refine SameNext.seqCommit d s ?_
  exact point_withDiag d (s.setXfer (f s.xfer)) ▸ .next d _

theorem exec_blind (i : Instr) : Blind (exec i) := fun d s => by
  rw [exec_eq, exec_eq]
  refine SameNext.onNext ?_ fun d s => storeOf_withDiag d s i
  simp only [issue, engineBusy_withDiag, command_withDiag, State.withDiag_params]
  split
  · exact .refl _
  · exact .next d _

/-- A failure writes `diag_status` from `last_status`, or leaves it (43_sequencer.md R226). -/
theorem fail_blind (e : ErrKind) : Blind fun s => .next (fail e s) := fun d s => by
  cases h : s.session.lastStatus with
  | some w =>
    refine ⟨some w, ?_⟩
    simp [fail, h, State.withDiag]
    rfl
  | none =>
    refine ⟨d, ?_⟩
    simp [fail, h, State.withDiag]
    rfl

/-! ### The sequencer -/

theorem putWord_blind (i : Instr) (p : SeqPoint) : Blind (putWord i p) := fun d _ => .next d _

theorem putWithRca_blind (mk : Word → Instr) (p : SeqPoint) : Blind (putWithRca mk p) := fun d s =>
  .withSession fun _ => putWord_blind _ p d s

theorem setPc_blind (p : SeqPoint) : Blind fun s => .next (s.setPc p) := fun d _ => .next d _

theorem afterReply_blind {k : State → StepResult} (h : Blind k) : Blind fun s => afterReply s (k s) := fun d s => by
  simp only [afterReply, State.withDiag_engine]
  split
  · exact h d s
  · exact fail_blind _ d s

theorem stepPowerUp_blind : Blind stepPowerUp := fun d s => by
  have hpins : configurePins (s.withDiag d) = (configurePins s).withDiag d := by simp [configurePins]
  simp only [stepPowerUp, hpins, rmw_withDiag, State.withDiag_params, State.withDiag_seq, State.withDiag_emit,
    State.withDiag_setPc]
  exact .next d _

theorem stepIdleReply_blind : Blind stepIdleReply := fun d s =>
  .ite (fun _ => .next d (s.setPc _)) fun _ => fail_blind _ d s

theorem stepProbeReply_blind (trial : Nat) : Blind (stepProbeReply trial) := fun d s => by
  simp only [stepProbeReply, State.withDiag_engine]
  split
  · exact .next d _
  · exact fail_blind _ d (s.setSession { s.session with version2 := some false })
  · exact fail_blind _ d (s.setSession { s.session with version2 := some false })
  · split
    · exact .next d _
    · exact fail_blind _ d s

theorem stepVoltPrefixReply_blind (round : Nat) : Blind (stepVoltPrefixReply round) :=
  afterReply_blind fun d s => by
    simp only [readValue_withDiag, readNext_withDiag, State.withDiag_params]
    split
    · exact .next d _
    · exact fail_blind _ d _

theorem stepVoltCondReply_blind (round : Nat) : Blind (stepVoltCondReply round) :=
  afterReply_blind fun d s => .ite (fun _ => .next d (s.setPc _)) fun _ =>
    .ite (fun _ => .next d (s.setPc _)) fun _ => fail_blind _ d s

theorem stepCapacity_blind : Blind stepCapacity := fun d s =>
  .withSession fun ocr => by
    split
    · exact fail_blind _ d s
    · exact .next d _

theorem beginShortRead_blind (bytes : Nat) : Blind (beginShortRead bytes) := fun d s => by
  simp only [beginShortRead, engineBusy_withDiag, State.withDiag_params, writeReg_withDiag]
  split
  · exact .refl _
  · split
    · exact .refl _
    · exact .next d _

theorem stepConfigDrain_blind : Blind stepConfigDrain := fun d s => by
  simp only [stepConfigDrain, engineBusy_withDiag, State.withDiag_params, drain_withDiag]
  split
  · exact .refl _
  · split
    · exact .next d _
    · exact fail_blind _ d _
    · exact fail_blind _ d _

theorem stepWidthPrefix_blind : Blind stepWidthPrefix := fun d s =>
  .withSession fun scr => by
    split
    · exact putWithRca_blind _ _ d s
    · exact fail_blind _ d s

theorem stepSpeed_blind : Blind stepSpeed := fun d s => by
  simp only [stepSpeed, rmw_withDiag, State.withDiag_params, State.withDiag_seq]
  exact .next d _

theorem stepReadyReply_blind (query : Nat) : Blind (stepReadyReply query) :=
  afterReply_blind fun d s => .ite (fun _ => .next d (becomeReady s)) fun _ =>
    .ite (fun _ => .next d (s.setPc _)) fun _ => fail_blind _ d s

theorem seqStep_blind : Blind seqStep := fun d s => by
  simp only [seqStep, State.withDiag_seq, point_withDiag]
  cases s.seq.pc with
  | off | ready | failed => exact .next d _
  | idleIssue | probeIssue | voltPrefix | voltCond | identIssue | addrIssue | configLen | configScr | widthSet =>
    exact putWord_blind _ _ d s
  | csdIssue | selectIssue | configPrefix | readyIssue => exact putWithRca_blind _ _ d s
  | identReply | addrReply | csdReply | selectReply | configLenReply | configPrefixReply | configScrReply
  | widthPrefixReply | widthSetReply => exact afterReply_blind (setPc_blind _) d s
  | powerUp => exact stepPowerUp_blind d s
  | idleReply => exact stepIdleReply_blind d s
  | probeReply trial => exact stepProbeReply_blind trial d s
  | voltPrefixReply round => exact stepVoltPrefixReply_blind round d s
  | voltCondReply round => exact stepVoltCondReply_blind round d s
  | capacity => exact stepCapacity_blind d s
  | configPrime => exact (beginShortRead_blind _ d s).onNext fun _ _ => rfl
  | configDrain => exact stepConfigDrain_blind d s
  | widthPrefix => exact stepWidthPrefix_blind d s
  | speed => exact stepSpeed_blind d s
  | readyReply query => exact stepReadyReply_blind query d s

/-! ### HOST's calls -/

@[simp] theorem recordSeen_withDiag (f : RecField) (d : Option Word) (s : State) :
    recordSeen f (s.withDiag d) = (recordSeen f s).withDiag d := point_withDiag d (s.emit (.record f (recordNow f s)))

theorem waitPoll_blind (left : Nat) : Blind (waitPoll left) := fun d s => by
  simp only [waitPoll, recordSeen_withDiag, State.withDiag_xfer, State.withDiag_seq]
  split
  · exact .next d _
  · split
    · exact .next d _
    · exact .next d _

theorem bringUp_blind (rate : Nat) : Blind (bringUp rate) := fun d s => by
  have hbusy : (seqBusy (s.withDiag d) || (s.withDiag d).xfer.inFlight) = (seqBusy s || s.xfer.inFlight) := rfl
  simp only [bringUp, hbusy]
  exact .refl _

theorem startTransfer_blind (multi : Bool) : Blind (startTransfer multi) := fun d s => by
  have hadmitted : startAdmitted (s.withDiag d) = startAdmitted s := rfl
  simp only [startTransfer, hadmitted]
  split
  · refine (recordWrite_blind _ d (s.setSeq { s.seq with acquired := false, startMulti := multi })).andThen fun d s => ?_
    refine (recordWrite_blind _ d s).andThen fun d s => ?_
    refine (recordWrite_blind _ d s).andThen fun d s => ?_
    exact (recordWrite_blind _ d s).andThen (recordWrite_blind _)
  · exact .refl _

theorem readRecord_blind (f : RecField) : Blind (readRecord f) := fun d s => by
  have hread : recordRead f (s.withDiag d) = recordRead f s := rfl
  simp only [readRecord, hread, State.withDiag_emit, State.withDiag_env, State.withDiag_setEnv, State.withDiag_seq,
    State.withDiag_xfer, State.withDiag_setSeq, point_withDiag]
  exact .next d _

theorem memRead_blind (addr : Word) (width : Nat) : Blind (memRead addr width) := fun d s => by
  simp only [memRead, State.withDiag_params, readNext_withDiag]
  split
  · exact .next d _
  · exact .refl _

theorem memWrite_blind (addr : Word) (width : Nat) (v : Word) : Blind (memWrite addr width v) := fun d s => by
  simp only [memWrite, State.withDiag_params, writeReg_withDiag]
  split
  · exact .next d _
  · exact .refl _

theorem routeIrq_blind : Blind routeIrq := fun d s =>
  ⟨d, congrArg _ (point_withDiag d (s.setIrq { s.irq with routed := true }))⟩

theorem doCall_blind (op : HostOp) : Blind (doCall op) := by
  cases op with
  | bringUp rate => exact bringUp_blind rate
  | startTransfer multi => exact startTransfer_blind multi
  | waitTransfer => exact fun d _ => .next d _
  | shortRead bytes => exact beginShortRead_blind bytes
  | memRead addr width => exact memRead_blind addr width
  | memWrite addr width v => exact memWrite_blind addr width v
  | readRecord f => exact readRecord_blind f
  | routeIrq => exact routeIrq_blind

theorem otherContext_blind (op : HostOp) : Blind (otherContext op) := by
  cases op with
  | startTransfer multi =>
    intro d s
    have hadmitted : startAdmitted (s.withDiag d) = startAdmitted s := rfl
    simp only [otherContext, hadmitted]
    split
    · exact .refl _
    · exact startTransfer_blind multi d s
  | waitTransfer | shortRead | readRecord => exact fun _ _ => .refl _
  | bringUp rate => exact bringUp_blind rate
  | memRead addr width => exact memRead_blind addr width
  | memWrite addr width v => exact memWrite_blind addr width v
  | routeIrq => exact routeIrq_blind

/-! ### The agents -/

theorem seqOwn_blind : Blind seqOwn := fun d s => by
  simp only [seqOwn, State.withDiag_seq]
  split
  · exact waitPoll_blind _ d s
  · exact seqStep_blind d s

theorem seqOrCall_blind : Blind seqOrCall := fun d s => by
  have hbusy : seqBusy (s.withDiag d) = seqBusy s := rfl
  simp only [seqOrCall, State.withDiag_calls, hbusy]
  split
  · exact seqOwn_blind d s
  next c rest _ =>
    split
    · split
      · exact seqOwn_blind d s
      · exact otherContext_blind _ d (s.setCalls rest)
    · exact doCall_blind _ d (s.setCalls rest)

theorem seqAction_blind : Blind seqAction := fun d s => by
  simp only [seqAction, runWord, State.withDiag_engine, State.withDiag_params]
  split
  · split
    next i _ => exact exec_blind _ d (fetched i s)
    · exact .refl _
  · exact seqOrCall_blind d s

@[simp] theorem setPhase_withDiag (p : IrqPhase) (d : Option Word) (s : State) :
    setPhase p (s.withDiag d) = (setPhase p s).withDiag d := rfl

@[simp] theorem irqReturn_withDiag (d : Option Word) (s : State) : irqReturn (s.withDiag d) = (irqReturn s).withDiag d :=
  point_withDiag d (s.setIrq { s.irq with latched := false, phase := .idle })

theorem dataEndPath_withDiag (d : Option Word) (s : State) : dataEndPath (s.withDiag d) = (dataEndPath s).withDiag d := by
  simp [dataEndPath, dataEndWrites]

theorem errorPath_withDiag (st : Word) (d : Option Word) (s : State) :
    errorPath st (s.withDiag d) = (errorPath st s).withDiag d := by
  simp [errorPath]

theorem irqDispatch_withDiag (d : Option Word) (s : State) : irqDispatch (s.withDiag d) = (irqDispatch s).withDiag d := by
  simp only [irqDispatch, readValue_withDiag, readNext_withDiag, State.withDiag_params, errorPath_withDiag,
    dataEndPath_withDiag, irqReturn_withDiag, ← apply_ite (State.withDiag d)]

theorem irqCollect_withDiag (d : Option Word) (s : State) : irqCollect (s.withDiag d) = (irqCollect s).withDiag d := by
  by_cases h : s.engine.reply.out = .success <;> simp [irqCollect, h]

theorem irqRelease_withDiag (d : Option Word) (s : State) : irqRelease (s.withDiag d) = (irqRelease s).withDiag d := by
  simp [irqRelease]

theorem irqStop_blind : Blind irqStop := fun d s => by
  simp only [irqStop, State.withDiag_params, State.withDiag_engine]
  split
  next i _ => exact (exec_blind i d (s.setEngine { s.engine with appPending := i.isPrefix })).onNext fun _ _ => rfl
  · exact .refl _

theorem irqAction_blind : Blind irqAction := fun d s => by
  simp only [irqAction, State.withDiag_irq, irqDispatch_withDiag, irqCollect_withDiag, irqRelease_withDiag]
  split
  case h_3 => exact irqStop_blind d s
  all_goals exact .next d _

theorem irqEnter_blind : Blind irqEnter := fun d s =>
  .ite (fun _ => .next d (s.setIrq _)) fun _ => .refl _

theorem step_blind : Blind step := fun d s => by
  simp only [step, State.withDiag_irq]
  split
  case h_1 => exact .ite (fun _ => irqEnter_blind d s) fun _ => (seqAction_blind d s).seqCommit d s
  all_goals exact irqAction_blind d s

/-- Settles O48: every action is blind to `diag_status`. -/
theorem diagStatusIsReadByNoRule : Obligations.DiagStatusIsReadByNoRule := by
  unfold Obligations.DiagStatusIsReadByNoRule
  intro s d
  obtain ⟨d', h⟩ : SameNext (step s) (step (s.withDiag d)) := step_blind d s
  have h' : step (s.setSession { s.session with diagStatus := d }) = onNext (step s) (State.withDiag d') := h
  dsimp only
  rw [h']
  cases step s with
  | next t => exact ⟨by simp, by simp, by rintro _ ⟨⟩; exact ⟨_, rfl, rfl⟩⟩
  | fault e => simp
  | refused e => simp

end Sys2Proof.Machine
end

section
/-! PROOFS. What reset leaves (O29, O42), and the states that issue a word (O35). -/

namespace Sys2Proof.Machine

/-- Settles O29: reset by its definition, and an admitted BringUp begins a session. -/
theorem resetState : Obligations.ResetState := by
  unfold Obligations.ResetState
  refine ⟨fun r _ => ?_, rfl, rfl, rfl, fun rate s t h => (bringUp_begins h).2⟩
  cases r <;> rfl

/-- Settles O42: the state after reset is a literal but for its parameters, whose layout is the default one. -/
theorem resetMeetsTheInvariants : Obligations.ResetMeetsTheInvariants := ⟨rfl, rfl⟩

/-- Where nothing but the sequencer can act a step is the sequencer's action. -/
theorem step_of_quiet {s : State} (h : quiet s = true) : step s = seqStep s := by
  simp only [quiet, Bool.and_eq_true, Bool.not_eq_true', beq_iff_eq, Option.isNone_iff_eq_none,
    List.isEmpty_iff] at h
  obtain ⟨⟨⟨⟨⟨hphase, hlatched⟩, hline⟩, hslot⟩, hcalls⟩, hwait⟩ := h
  simp [step, hphase, hlatched, seqCommit_quiet _ hline, seqAction, hslot, seqOrCall, hcalls, seqOwn, hwait]

/-- What issuing a word leaves: the word in the slot, the point that takes its outcome, and the rest as it was. -/
def Issued (w : CmdWord) (p : SeqPoint) (s t : State) : Prop :=
  t.engine = { s.engine with slot := some w } ∧ t.seq = { s.seq with pc := p }
    ∧ t.regs = s.regs ∧ t.session = s.session ∧ t.xfer = s.xfer ∧ t.trace = s.trace

theorem putWord_issues (i : Instr) (p : SeqPoint) (s : State) :
    ∃ t, putWord i p s = .next t ∧ Issued (encode s.params.layout i) p s t :=
  ⟨_, rfl, rfl, rfl, rfl, rfl, rfl, rfl⟩

theorem putWithRca_issues (mk : Word → Instr) (p : SeqPoint) (cmdr : Word) (s : State)
    (hmk : ∀ rca, encode s.params.layout (mk rca) = ⟨rca, cmdr⟩) :
    (s.session.rca = none → putWithRca mk p s = .fault (.unwrittenRead .rca))
      ∧ ∀ rca, s.session.rca = some rca → ∃ t, putWithRca mk p s = .next t ∧ Issued ⟨rca, cmdr⟩ p s t := by
  refine ⟨fun h => by simp [putWithRca, h, withSession], fun rca h => ?_⟩
  have hput : putWithRca mk p s = putWord (mk rca) p s := by simp [putWithRca, h, withSession]
  rw [hput, ← hmk rca]
  exact putWord_issues (mk rca) p s

/-- Settles O35: each issuing state puts its row's word, whose encoding in the default layout is the one listed. -/
theorem statesIssueTheirWords : Obligations.StatesIssueTheirWords := by
  unfold Obligations.StatesIssueTheirWords
  intro s n hstd hquiet
  have hword (i : Instr) (p : SeqPoint) := putWord_issues i p s
  have hrca (mk : Word → Instr) (p : SeqPoint) (cmdr : Word) := putWithRca_issues mk p cmdr s
  rw [layout_of_standard hstd] at hword hrca
  rw [step_of_quiet hquiet]
  refine ⟨fun e he hpc => ?_, fun e he hpc => ?_⟩
  · simp only [List.mem_cons, List.not_mem_nil, or_false] at he
    rcases he with rfl | rfl | rfl | rfl | rfl | rfl | rfl | rfl | rfl <;> rw [seqStep, hpc]
    · exact hword (.cmd0 0) .idleReply
    · exact hword (.cmd8 0x1AA) (.probeReply n)
    · exact hword (.cmd55 0) (.voltPrefixReply n)
    · exact hword (.acmd41 0xC0100000) (.voltCondReply n)
    · exact hword (.cmd2 0) .identReply
    · exact hword (.cmd3 0) .addrReply
    · exact hword (.cmd16 8) .configLenReply
    · exact hword (.acmd51 0) .configScrReply
    · exact hword (.acmd6 2) .widthSetReply
  · simp only [List.mem_cons, List.not_mem_nil, or_false] at he
    rcases he with rfl | rfl | rfl | rfl <;> rw [seqStep, hpc]
    · exact hrca .cmd9 .csdReply 0x1309
        fun a => congrArg (CmdWord.mk a) (show cmdw standardLayout 9 .long = 0x1309 by decide)
    · exact hrca .cmd7 .selectReply 0x1107
        fun a => congrArg (CmdWord.mk a) (show cmdw standardLayout 7 .short = 0x1107 by decide)
    · exact hrca .cmd55 .configPrefixReply 0x1137
        fun a => congrArg (CmdWord.mk a) (show cmdw standardLayout 55 .short = 0x1137 by decide)
    · exact hrca .cmd13 (.readyReply n) 0x110D
        fun a => congrArg (CmdWord.mk a) (show cmdw standardLayout 13 .short = 0x110D by decide)

end Sys2Proof.Machine
end

section
/-! PROOFS. Accesses of the register window and reads of the transfer record (O57 to O59). -/

namespace Sys2Proof.Machine

/-! ### Which accesses of the window are made -/

theorem Reg.mem_all (r : Reg) : r ∈ Reg.all := by cases r <;> decide

/-- No two registers of the default layout share an offset (10_state.md R50). -/
theorem standardOffsets_injective {r q : Reg} (h : standardOffsets.get r = standardOffsets.get q) : r = q :=
  List.inj_on_of_nodup_map (show (Reg.all.map standardOffsets.get).Nodup by decide) r.mem_all q.mem_all h

/-- In the default layout the search for an address finds the one register there, if the access has the form of
20_memory.md R71. -/
theorem regAt_eq_some_iff {p : Params} (hl : p.layout = standardLayout) {addr : Word} {width : Nat} {r : Reg} :
    regAt p addr width = some r ↔ (width = 4 ∧ addr.extractLsb' 0 2 = 0) ∧ p.base + standardOffsets.get r = addr := by
  have hoff : p.layout.offset = standardOffsets := by rw [hl]; rfl
  unfold regAt
  rw [hoff]
  split
  case isFalse hform => exact iff_of_false nofun (hform ·.1)
  case isTrue hform =>
    refine ⟨fun h => ⟨hform, by simpa using List.find?_some h⟩, fun ⟨_, haddr⟩ => ?_⟩
    cases hf : Reg.all.find? (fun q => p.base + standardOffsets.get q == addr) with
    | none => exact absurd (beq_iff_eq.mpr haddr) (List.find?_eq_none.mp hf r r.mem_all)
    | some q =>
      have hq : p.base + standardOffsets.get q = addr := by simpa using List.find?_some hf
      rw [standardOffsets_injective (BitVec.add_right_inj _ |>.mp (hq.trans haddr.symm))]

theorem memAccess_of_regAt {s : State} {addr : Word} {width : Nat} {r : Reg} (h : regAt s.params addr width = some r) :
    memRead addr width s = .next (readNext r s) ∧ ∀ v, memWrite addr width v s = .next (writeReg r v s) := by
  simp [memRead, memWrite, h]

theorem memAccess_refused {s : State} {addr : Word} {width : Nat} (h : regAt s.params addr width = none) :
    memRead addr width s = .refused .badAccess ∧ ∀ v, memWrite addr width v s = .refused .badAccess := by
  simp [memRead, memWrite, h]

/-- Settles O57: the access is that of the one register which `regAt` finds, or `regAt` finds none. -/
theorem windowAccesses : Obligations.WindowAccesses := by
  unfold Obligations.WindowAccesses
  intro s addr width hstd
  have hl := layout_of_standard hstd
  refine ⟨fun r haddr hwidth halign => memAccess_of_regAt ((regAt_eq_some_iff hl).mpr ⟨⟨hwidth, halign⟩, haddr⟩),
    fun hbad => memAccess_refused (Option.eq_none_iff_forall_ne_some.mpr fun r hr => ?_)⟩
  obtain ⟨⟨hwidth, halign⟩, haddr⟩ := (regAt_eq_some_iff hl).mp hr
  rcases hbad with h | h | h
  · exact h hwidth
  · exact h halign
  · exact h r haddr

/-! ### What a register holds after a write -/

theorem point_get {q : Reg} (hq : q ≠ .star) (s : State) : (point s).regs.get q = s.regs.get q := by
  obtain ⟨w, hw⟩ := point_regs s
  rw [hw, Regs.get_set_ne _ _ hq]

/-- A whole write leaves every other register as it was, but STAR. -/
theorem Regs.store_get_ne (l : Layout) (g : Regs) {r q : Reg} (v : Word) (hne : q ≠ r) (hq : q ≠ .star) :
    (g.store l r v).get q = g.get q := by
  unfold Regs.store
  split
  case h_1 => rfl
  case h_2 =>
    split
    case isTrue hr =>
      subst hr
      exact (Regs.get_set_ne (g.set .icr (v &&& l.rw.icr)) _ hq).trans (Regs.get_set_ne g _ hne)
    case isFalse => exact Regs.get_set_ne g _ hne

theorem writeReg_get_same {r : Reg} (hp : r.port = none) (v : Word) (s : State) :
    (writeReg r v s).regs.get r = v &&& s.params.layout.rw.get r := by
  refine (point_get (star_ne_of_port hp) _).trans ?_
  simp [Regs.store_get _ _ _ _ hp]

theorem writeReg_get_ne {r q : Reg} (v : Word) (s : State) (hne : q ≠ r) (hq : q ≠ .star) :
    (writeReg r v s).regs.get q = s.regs.get q :=
  (point_get hq _).trans (Regs.store_get_ne _ _ v hne hq)

/-- Where the line cannot reach the handler a write that leaves MASKR alone shows no new flags: STAR loses those that the
written word clears through ICR (10_state.md R61). -/
theorem writeReg_star {r : Reg} (v : Word) {s : State} (hline : canInterrupt s = false) (hr : r ≠ .maskr) :
    (writeReg r v s).regs.star =
      if r = .icr then s.regs.star &&& ~~~(v &&& stickyFlags s.params.layout) else s.regs.star := by
  have hmaskr : (s.regs.store s.params.layout r v).maskr = s.regs.maskr :=
    Regs.store_get_ne (q := .maskr) _ _ v (Ne.symm hr) (by decide)
  have hline' : canInterrupt ((s.setRegs (s.regs.store s.params.layout r v)).emit (.write r v)) = false := by
    simpa [canInterrupt, hmaskr] using hline
  rw [writeReg, point_of_quiet (by simp [hline'])]
  exact Regs.store_star _ _ r v

theorem readValue_writeReg {r : Reg} (hp : r.port = none) (v : Word) (s : State) :
    readValue r (writeReg r v s) = v &&& s.params.layout.rw.get r := by
  simp [readValue, hp, writeReg_get_same hp, BitVec.and_assoc]

theorem rmwWord_and_mask (old mask v : Word) : rmwWord old mask v &&& mask = v &&& mask := by
  simp [rmwWord, BitVec.and_or_distrib_right, BitVec.and_assoc, BitVec.and_comm (~~~mask)]

theorem rmwWord_and_not_mask (old mask v : Word) : rmwWord old mask v &&& ~~~mask = old &&& ~~~mask := by
  simp [rmwWord, BitVec.and_or_distrib_right, BitVec.and_assoc]

theorem rmw_get_same {r : Reg} (hp : r.port = none) (mask v : Word) (s : State) :
    (rmw r mask v s).regs.get r = rmwWord (s.regs.get r) mask v := by
  obtain ⟨w, hw⟩ := rmw_regs hp mask v s
  rw [hw, Regs.get_set_ne _ _ (star_ne_of_port hp), Regs.get_set_same]

theorem rmw_get_ne {r q : Reg} (hp : r.port = none) (mask v : Word) (s : State) (hne : q ≠ r) (hq : q ≠ .star) :
    (rmw r mask v s).regs.get q = s.regs.get q := by
  obtain ⟨w, hw⟩ := rmw_regs hp mask v s
  rw [hw, Regs.get_set_ne _ _ hq, Regs.get_set_ne _ _ hne]

/-- Settles O58: the laws of whole writes and of read-modify-writes, in the masks of the default layout. -/
theorem registerReadAfterWrite : Obligations.RegisterReadAfterWrite := by
  unfold Obligations.RegisterReadAfterWrite
  intro r q v mask s hstd
  have hl := layout_of_standard hstd
  have hrw : standardLayout.rw = standardRw := rfl
  refine ⟨by simp [readValue, Reg.port, starShown, hl],
    fun hp => ⟨?_, writeReg_get_ne v s, fun hline hr => ?_, fun _ => ?_⟩⟩
  · rw [readValue_writeReg hp, hl, hrw]
  · rw [writeReg_star v hline hr, hl, stickyFlags_standard]
  · rw [rmw_get_same hp]
    exact ⟨rmwWord_and_mask _ _ _, rmwWord_and_not_mask _ _ _, rmw_get_ne hp mask v s⟩

/-! ### What SEQ reads of the transfer record -/

theorem recordRead_completed (s : State) : recordRead .completed s = boolWord s.xfer.completed := by
  simp [recordRead, recordNow]

theorem recordRead_acquired {s : State} (f : RecField) (h : s.seq.acquired = true) :
    recordRead f s = recordNow f s := by
  simp [recordRead, h]

/-- Before the acquisition a read is a race between what StartTransfer wrote and what IRQ writes (20_memory.md R80
item 3). -/
theorem recordRead_racing {s : State} {f : RecField} (hf : f ≠ .completed) (ha : s.seq.acquired = false) :
    recordRead f s = recordStart f s ∨ recordRead f s = recordIrq f s := by
  cases hc : Config.raceTakesStart s.env.tick <;> simp [recordRead, hf, ha, hc]

theorem recordIrq_of_completed {s : State} (f : RecField) (h : s.xfer.completed = true) :
    recordIrq f s = recordNow f s := by
  simp [recordIrq, h]

theorem recordIrq_error (s : State) :
    recordIrq .error s = if s.xfer.completed then boolWord s.xfer.error else 1 := rfl

theorem recordIrq_multiBlock (s : State) :
    recordIrq .multiBlock s = if s.xfer.completed then boolWord s.xfer.multiBlock else 0 := rfl

/-- While the transfer runs, the handler writes to `status` a word with a data-error flag, or nothing (60_exceptions.md
R271, R274). -/
theorem recordIrq_status_running {s : State} (h : s.xfer.completed = false) :
    recordIrq .status s = 0 ∨ recordIrq .status s &&& dataErrFlags s.params.layout ≠ 0 := by
  by_cases hw : Config.raceStatus s.env.tick &&& dataErrFlags s.params.layout = 0#32
  · exact .inl (by simp [recordIrq, h, hw, recordStart])
  · exact .inr (by simp [recordIrq, h, hw])

theorem boolWord_eq_one_iff (b : Bool) : boolWord b = 1#32 ↔ b = true := by cases b <;> decide

/-- One read of the record: one access, and it acquires where it reads `completed` as true (20_memory.md R80). -/
theorem readRecord_effect (f : RecField) (s : State) :
    ∃ t, readRecord f s = .next t ∧ t.trace = .record f (recordRead f s) :: s.trace
      ∧ t.seq = { s.seq with acquired := t.seq.acquired }
      ∧ (t.seq.acquired = true ↔ s.seq.acquired = true ∨ (f = .completed ∧ recordRead f s = 1))
      ∧ t.xfer = s.xfer ∧ t.session = s.session ∧ t.engine = s.engine
      ∧ ∀ r : Reg, r ≠ .star → t.regs.get r = s.regs.get r := by
  refine ⟨_, rfl, by simp, by simp, ?_, by simp, by simp, by simp, fun r hr => point_get hr _⟩
  by_cases hf : f = .completed
  · subst hf
    simp [recordRead_completed, boolWord_eq_one_iff]
  · simp [hf]

/-- Settles O59: each field's value, and before the acquisition the two sides of its race. -/
theorem recordReads : Obligations.RecordReads := by
  unfold Obligations.RecordReads
  intro s
  refine ⟨fun f => readRecord_effect f s, rfl, rfl, rfl, rfl, recordRead_acquired,
    recordRead_completed s, fun ha => ⟨?_, ?_, fun hc => ?_, fun hstd hc => ?_⟩⟩
  · rw [← recordIrq_error]
    exact recordRead_racing (by decide) ha
  · rw [← recordIrq_multiBlock]
    exact recordRead_racing (by decide) ha
  · exact (recordRead_racing (by decide) ha).imp_right (·.trans (recordIrq_of_completed .status hc))
  · rcases recordRead_racing (f := .status) (by decide) ha with h | h <;> rw [h]
    · exact .inl rfl
    · simpa [layout_of_standard hstd] using recordIrq_status_running hc

end Sys2Proof.Machine
end

section
/-! PROOFS. The statements about the encoding (30_encoding.md): which words decode to an instruction (O1, O2), which are
refused (O3), what a step does with the word in the slot (O4), and the word that `send` leaves (O5). -/

namespace Sys2Proof.Machine

/-! ### The fields of a CMDR word -/

/-- A CMDR word's CMD_FIELDS are those of a word with this index and kind (30_encoding.md R102). -/
structure CarriesFields (l : Layout) (w : Word) (index : BitVec 6) (kind : RespKind) : Prop where
  cpsmen : w.getLsbD l.cpsmen = true
  waitint : w.getLsbD l.waitint = false
  waitpend : w.getLsbD l.waitpend = false
  cmdsuspend : w.getLsbD l.cmdsuspend = false
  waitresp : w.extractLsb' l.waitresp 2 = kind.code
  cmdindex : w.extractLsb' l.cmdindex 6 = index

/-- The bits of a word under a field's mask are the field's value at its position. -/
theorem and_fieldAt_allOnes (w : Word) (pos n : Nat) :
    w &&& fieldAt pos (BitVec.allOnes n) = fieldAt pos (w.extractLsb' pos n) := by
  ext k hk
  by_cases hpos : pos ≤ k
  · simp [fieldAt, hk, hpos, show ¬ k < pos by omega, Bool.and_comm]
  · simp [fieldAt, show k < pos by omega]

theorem fieldAt_zero (pos n : Nat) : fieldAt pos (0#n) = 0#32 := by simp [fieldAt]

theorem extractLsb'_one (w : Word) (pos : Nat) : w.extractLsb' pos 1 = BitVec.ofBool (w.getLsbD pos) := by
  ext k hk
  obtain rfl : k = 0 := by omega
  simp

/-- In every layout the CMD_FIELDS bits of a word with a row's fields are the row's word. -/
theorem CarriesFields.and_cmdFields {l : Layout} {w : Word} {index : BitVec 6} {kind : RespKind}
    (h : CarriesFields l w index kind) : w &&& cmdFields l = cmdw l index kind := by
  have hbit (pos : Nat) : w &&& fieldAt pos 1#1 = fieldAt pos (BitVec.ofBool (w.getLsbD pos)) :=
    (and_fieldAt_allOnes w pos 1).trans (congrArg _ (extractLsb'_one w pos))
  have hresp : w &&& fieldAt l.waitresp 0b11#2 = fieldAt l.waitresp kind.code :=
    h.waitresp ▸ and_fieldAt_allOnes w l.waitresp 2
  have hindex : w &&& fieldAt l.cmdindex 0b111111#6 = fieldAt l.cmdindex index :=
    h.cmdindex ▸ and_fieldAt_allOnes w l.cmdindex 6
  simp [cmdFields, cmdw, bitsAt, BitVec.and_or_distrib_left, hbit, hresp, hindex, h.cpsmen, h.waitint, h.waitpend,
    h.cmdsuspend, fieldAt_zero]

/-- The row's word in the numbers of 30_encoding.md R102. -/
theorem cmdw_standard (index : BitVec 6) (kind : RespKind) :
    cmdw standardLayout index kind = 0x00001000 ||| (kind.code.setWidth 32 <<< 8) ||| index.setWidth 32 := by
  simp [cmdw, bitsAt, fieldAt, standardLayout]

/-- In the default layout the row's word has the row's fields. -/
theorem carriesFields_cmdw (index : BitVec 6) (kind : RespKind) :
    CarriesFields standardLayout (cmdw standardLayout index kind) index kind := by
  rw [cmdw_standard]
  constructor
  · simp [standardLayout]
  · simp [standardLayout]
  · simp [standardLayout]
  · simp [standardLayout]
  · ext k hk
    interval_cases k <;> simp [standardLayout]
  · ext k hk
    interval_cases k <;> simp [standardLayout]

/-- The fields of the default layout lie within CMD_FIELDS: a word has those of its masked part. -/
theorem carriesFields_of_and {w : Word} {index : BitVec 6} {kind : RespKind}
    (h : CarriesFields standardLayout (w &&& 0x00011F3F) index kind) : CarriesFields standardLayout w index kind where
  cpsmen := by simpa [standardLayout] using h.cpsmen
  waitint := by simpa [standardLayout] using h.waitint
  waitpend := by simpa [standardLayout] using h.waitpend
  cmdsuspend := by simpa [standardLayout] using h.cmdsuspend
  waitresp := by
    rw [← h.waitresp, BitVec.extractLsb'_and]
    exact BitVec.and_allOnes.symm
  cmdindex := by
    rw [← h.cmdindex, BitVec.extractLsb'_and]
    exact BitVec.and_allOnes.symm

/-- In the default layout a word has a row's fields exactly when its CMD_FIELDS bits are the row's word. -/
theorem carriesFields_iff {w : Word} {index : BitVec 6} {kind : RespKind} :
    CarriesFields standardLayout w index kind ↔ w &&& 0x00011F3F = cmdw standardLayout index kind :=
  ⟨fun h => by simpa using h.and_cmdFields,
    fun h => carriesFields_of_and (h ▸ carriesFields_cmdw index kind)⟩

/-! ### What the decoder answers -/

theorem RespKind.ofCode_eq_some_iff {c : BitVec 2} {k : RespKind} : RespKind.ofCode c = some k ↔ c = k.code := by
  refine ⟨fun h => ?_, fun h => h ▸ RespKind.ofCode_code k⟩
  unfold RespKind.ofCode at h
  split_ifs at h <;> cases h <;> assumption

/-- The row search answers with an instruction exactly when the row and the argument are that instruction's. -/
theorem instrOfRow_eq_some_iff {p : Bool} {index : BitVec 6} {kind : RespKind} {a : Word} {i : Instr} :
    instrOfRow p index.toNat kind a = some i ↔ p = i.row.app ∧ index = i.row.index ∧ kind = i.row.kind ∧ a = i.arg := by
  constructor
  · intro h
    unfold instrOfRow at h
    repeat' split at h
    all_goals cases h
    all_goals exact ⟨rfl, BitVec.eq_of_toNat_eq ‹_›, rfl, rfl⟩
  · rintro ⟨rfl, rfl, rfl, rfl⟩
    exact instrOfRow_row i

/-- In every layout a word decodes to an instruction exactly when it has the row's fields and the instruction's
argument, where `app_pending` is as its row asks (30_encoding.md R110, R111). -/
theorem decode_eq_instr_iff {l : Layout} {p : Bool} {w : CmdWord} {i : Instr} :
    decode l p w = .instr i ↔ CarriesFields l w.cmdr i.row.index i.row.kind ∧ p = i.row.app ∧ w.arg = i.arg := by
  constructor
  · intro h
    unfold decode at h
    split_ifs at h with hcpsmen hint hpend hsuspend
    split at h
    · cases h
    case h_2 kind hkind =>
      split at h
      · cases h
      case h_2 j hrow =>
        obtain rfl : j = i := by injection h
        obtain ⟨hp, hindex, rfl, harg⟩ := instrOfRow_eq_some_iff.mp hrow
        exact ⟨⟨by simpa using hcpsmen, by simpa using hint, by simpa using hpend, by simpa using hsuspend,
          RespKind.ofCode_eq_some_iff.mp hkind, hindex⟩, hp, harg⟩
  · rintro ⟨h, rfl, harg⟩
    simp [decode, h.cpsmen, h.waitint, h.waitpend, h.cmdsuspend, h.waitresp, h.cmdindex, harg, instrOfRow_row]

/-- Settles O2: a word decodes by its fields, and the fields are those of the encoding exactly when the masked word is. -/
theorem decodeAndEncodeAgree : Obligations.DecodeAndEncodeAgree := by
  unfold Obligations.DecodeAndEncodeAgree
  refine ⟨decode_encode, fun p w i => ?_⟩
  rw [decode_eq_instr_iff, carriesFields_iff]
  tauto

/-- The row's word decodes to its row, with any argument. -/
theorem decode_rowWord (i : Instr) {w : Word} (hw : cmdw standardLayout i.row.index i.row.kind = w) :
    decode standardLayout i.row.app ⟨i.arg, w⟩ = .instr i :=
  hw ▸ decode_encode i

/-- Settles O1: each word listed is the word of its row. -/
theorem opcodeMapWordsDecode : Obligations.OpcodeMapWordsDecode := by
  unfold Obligations.OpcodeMapWordsDecode
  intro a
  refine ⟨decode_rowWord (.cmd0 a) ?_, decode_rowWord (.cmd1 a) ?_, decode_rowWord (.cmd2 a) ?_,
    decode_rowWord (.cmd3 a) ?_, decode_rowWord (.cmd7 a) ?_, decode_rowWord (.cmd8 a) ?_,
    decode_rowWord (.cmd9 a) ?_, decode_rowWord (.cmd12 a) ?_, decode_rowWord (.cmd13 a) ?_,
    decode_rowWord (.cmd16 a) ?_, decode_rowWord (.cmd55 a) ?_, decode_rowWord (.acmd6 a) ?_,
    decode_rowWord (.acmd41 a) ?_, decode_rowWord (.acmd51 a) ?_⟩
    <;> simp [cmdw_standard, Instr.row, RespKind.code]

/-- A word that decodes to no instruction is rejected under some name. -/
theorem exists_reject {l : Layout} {p : Bool} {w : CmdWord} (h : ∀ i, decode l p w ≠ .instr i) :
    ∃ why, decode l p w = .reject why := by
  cases hd : decode l p w with
  | instr i => exact absurd hd (h i)
  | reject why => exact ⟨why, rfl⟩

/-! ### The step that runs a word -/

/-- Where no handler runs or is requested a step runs the word in the slot. -/
theorem step_of_slot {s : State} {w : CmdWord} (hphase : s.irq.phase = .idle) (hlatched : s.irq.latched = false)
    (hslot : s.engine.slot = some w) : step s = seqCommit s (runWord w s) := by
  simp [step, hphase, hlatched, seqAction, hslot]

/-- Settles O3: each clause contradicts a field of a word that decodes. -/
theorem reservedWordsAreRefused : Obligations.ReservedWordsAreRefused := by
  unfold Obligations.ReservedWordsAreRefused
  intro p w hreserved
  have hnone (i : Instr) : decode standardLayout p w ≠ .instr i := by
    intro hd
    obtain ⟨hf, hp, -⟩ := decode_eq_instr_iff.mp hd
    rcases hreserved with h | h | h | h | h | h | h
    · exact absurd (h.symm.trans hf.waitresp) (by cases i.row.kind <;> decide)
    · exact absurd (h.symm.trans hf.waitint) (by decide)
    · exact absurd (h.symm.trans hf.waitpend) (by decide)
    · exact absurd (h.symm.trans hf.cmdsuspend) (by decide)
    · exact absurd (h.symm.trans hf.cpsmen) (by decide)
    · exact h i ⟨hp.symm, hf.cmdindex.symm⟩
    · exact h i ⟨hp.symm, carriesFields_iff.mp hf⟩
  obtain ⟨why, hwhy⟩ := exists_reject hnone
  refine ⟨why, hwhy, fun s hstd hphase hlatched hslot hp => ?_⟩
  have hrun : runWord w s = .refused (.notAnInstruction why) := by
    simp [runWord, layout_of_standard hstd, hp, hwhy]
  rw [step_of_slot hphase hlatched hslot, hrun]
  rfl

/-- Settles O4: the step is the end of a step of SEQ around the decoded instruction. -/
theorem stepRunsTheDecodedWord : Obligations.StepRunsTheDecodedWord := by
  unfold Obligations.StepRunsTheDecodedWord
  intro s w i hphase hlatched hslot hdecode
  have hstep : step s = seqCommit s (exec i (fetched i s)) := by
    rw [step_of_slot hphase hlatched hslot, runWord, hdecode]
  rw [hstep]
  refine ⟨fun t ht => ?_, fun e he => ?_⟩
  · rw [show exec i (fetched i s) = .next t from ht]
    simp [seqCommit, and_assoc]
  · rw [show exec i (fetched i s) = .refused e from he]
    rfl

/-! ### The word that `send` leaves -/

/-- Settles O5: the row's word is its own CMD_FIELDS part, so the read-modify-write stores it whole. -/
theorem sendLeavesTheWord : Obligations.SendLeavesTheWord := by
  unfold Obligations.SendLeavesTheWord
  intro row a s hstd
  have hl := layout_of_standard hstd
  have hmask : cmdw standardLayout row.index row.kind &&& 0x00011F3F = cmdw standardLayout row.index row.kind :=
    carriesFields_iff.mp (carriesFields_cmdw row.index row.kind)
  refine ⟨cmdw_standard row.index row.kind, ?_, ?_, ?_⟩
  · rw [← hmask, BitVec.and_assoc]
    simp
  · rw [send_cmdr, hl, cmdFields_standard, rmwWord, hmask]
  · rw [send_argr, hl]
    exact BitVec.and_allOnes

end Sys2Proof.Machine
end

section
/-! PROOFS. The statements about the engine (40_engine.md): where an await ends (O7, O8), its last access (O9), how many polls
it makes (O10), the response reads (O11), and when a command word is refused (O21). -/

namespace Sys2Proof.Machine

/-! ### What the status word says in the default layout -/

theorem sentSeen_standard (st : Word) : sentSeen standardLayout st = st.getLsbD 7 := rfl

theorem responseSeen_standard_eq_true_iff (st : Word) :
    responseSeen standardLayout st = true ↔ st &&& 0x00200045 ≠ 0 ∧ st.getLsbD 13 = false := by
  rw [responseSeen, termFlags_standard]
  simp [standardLayout]

theorem responseSeen_standard_eq_false_iff (st : Word) :
    responseSeen standardLayout st = false ↔ st &&& 0x00200045 = 0 ∨ st.getLsbD 13 = true := by
  rw [← Bool.not_eq_true, responseSeen_standard_eq_true_iff]
  simp [imp_iff_not_or]

theorem classify_standard (st : Word) :
    classify standardLayout st =
      if st.getLsbD 2 = true then .hwTimeout else if st.getLsbD 0 = true then .crcFailure else .success := rfl

/-- A terminal status word is an answer of the card or the hardware, not the budget's end (40_engine.md R144). -/
theorem classify_ne_budgetExhausted (l : Layout) (st : Word) : classify l st ≠ .budgetExhausted := by
  unfold classify
  split_ifs <;> nofun

/-! ### Where an await ends -/

/-- In every layout `await_sent` ends at the first poll that shows CMDSENT. -/
theorem awaitSent_stops {k n : Nat} {s : State} (hk : k < n)
    (hbefore : ∀ j < k, sentSeen s.params.layout (pollWord j s) = false)
    (hat : sentSeen s.params.layout (pollWord k s) = true) :
    awaitSent n s = (.success, leaveLoop (cmdFlags s.params.layout) (pollAfter (k + 1) s)) := by
  simp only [awaitSent, poll_stops k n s hk hbefore hat]

theorem awaitSent_exhausts {n : Nat} {s : State} (h : ∀ j < n, sentSeen s.params.layout (pollWord j s) = false) :
    awaitSent n s = (.budgetExhausted, leaveLoop (cmdFlags s.params.layout) (pollAfter n s)) := by
  simp only [awaitSent, poll_exhausts n s h]

/-- In every layout `await_response` ends at the first terminal status word, with that word's outcome. -/
theorem awaitResponse_stops {k n : Nat} {s : State} (hk : k < n)
    (hbefore : ∀ j < k, responseSeen s.params.layout (pollWord j s) = false)
    (hat : responseSeen s.params.layout (pollWord k s) = true) :
    awaitResponse n s =
      (classify s.params.layout (pollWord k s), leaveLoop (cmdFlags s.params.layout) (pollAfter (k + 1) s)) := by
  simp only [awaitResponse, poll_stops k n s hk hbefore hat]

theorem awaitResponse_exhausts {n : Nat} {s : State}
    (h : ∀ j < n, responseSeen s.params.layout (pollWord j s) = false) :
    awaitResponse n s = (.budgetExhausted, leaveLoop (cmdFlags s.params.layout) (pollAfter n s)) := by
  simp only [awaitResponse, poll_exhausts n s h]

/-- Settles O7: the poll loop stops where the layout's CMDSENT, bit 7 of the default one, is read. -/
theorem awaitSentStopsAtCommandSent : Obligations.AwaitSentStopsAtCommandSent := by
  unfold Obligations.AwaitSentStopsAtCommandSent
  intro n s hstd
  have hl := layout_of_standard hstd
  rw [← cmdFlags_standard, ← hl]
  refine ⟨fun k hk hbefore hat => awaitSent_stops hk ?_ ?_, fun hnone => awaitSent_exhausts ?_⟩
  · simpa only [hl, sentSeen_standard] using hbefore
  · simpa only [hl, sentSeen_standard] using hat
  · simpa only [hl, sentSeen_standard] using hnone

/-- Settles O8: the poll loop stops where a terminal flag is read with CPSMACT clear, and the outcome is that word's. -/
theorem awaitResponseStopsAtTerminal : Obligations.AwaitResponseStopsAtTerminal := by
  unfold Obligations.AwaitResponseStopsAtTerminal
  intro n s hstd
  have hl := layout_of_standard hstd
  simp only [← classify_standard, ← responseSeen_standard_eq_false_iff]
  rw [← cmdFlags_standard, ← hl]
  refine ⟨fun k hk hbefore hflag hpath => awaitResponse_stops hk hbefore ?_, awaitResponse_exhausts⟩
  rw [hl]
  exact (responseSeen_standard_eq_true_iff _).mpr ⟨hflag, hpath⟩

/-! ### The last access of an await -/

/-- What R149 says of an await from `s` that ends in `t`: its one ICR write, of `flags`, is its last access, the loop counters
are unwritten, and where the line cannot reach the handler STAR shows none of those flags that are sticky. -/
structure EndsWithClear (flags : Word) (s t : State) : Prop where
  trace : ∃ tr, t.trace = .write .icr flags :: tr ∧ icrWrites tr = icrWrites s.trace
  loop : t.loop = LoopCount.idle
  star : canInterrupt s = false → t.regs.star &&& (flags &&& stickyFlags s.params.layout) = 0

/-- Polls write no register. -/
theorem poll_icrWrites (stop : Word → Bool) (n : Nat) (s : State) :
    icrWrites (poll stop n s).2.trace = icrWrites s.trace :=
  poll_induct (P := fun u => icrWrites u.trace = icrWrites s.trace) stop
    (fun u hu => by simpa [icrWrites] using hu) n s rfl

/-- An operation that does not touch MASKR leaves it as it was whether the line can reach the handler. -/
theorem Kept.canInterrupt_eq {l : List Reg} {s t : State} (h : Kept l s t) (hl : .maskr ∉ l) :
    canInterrupt t = canInterrupt s := by
  have hmaskr : t.regs.maskr = s.regs.maskr := h.regs .maskr hl
  rw [canInterrupt, canInterrupt, h.routed, hmaskr]

/-- Any loop of polls, left by the write of ICR, ends with that clear, whatever it stops on. -/
theorem leaveLoop_poll_endsWithClear (flags : Word) (stop : Word → Bool) (n : Nat) (s : State) :
    EndsWithClear flags s (leaveLoop flags (poll stop n s).2) where
  trace := ⟨(poll stop n s).2.trace, leaveLoop_trace _ _, poll_icrWrites stop n s⟩
  loop := leaveLoop_loop _ _
  star := by
    intro hline
    have hkept := poll_kept stop n s
    have hline' : canInterrupt (poll stop n s).2 = false := (hkept.canInterrupt_eq (by decide)).trans hline
    rw [leaveLoop_regs, writeReg_star _ hline' (by decide), if_pos rfl, hkept.params, BitVec.and_assoc]
    simp

/-- Settles O9: both awaits are a poll loop left by the clear of CMD_FLAGS, all of which are sticky. -/
theorem everyAwaitEndsWithTheClear : Obligations.EveryAwaitEndsWithTheClear := by
  unfold Obligations.EveryAwaitEndsWithTheClear
  intro n s hstd
  have hl := layout_of_standard hstd
  have hflags : cmdFlags s.params.layout = 0x002000C5 := by rw [hl, cmdFlags_standard]
  have hsticky : (0x002000C5 : Word) &&& stickyFlags s.params.layout = 0x002000C5 := by
    rw [hl, stickyFlags_standard]; decide
  have hsent : EndsWithClear 0x002000C5 s (awaitSent n s).2 := hflags ▸ leaveLoop_poll_endsWithClear _ _ n s
  have hresponse : EndsWithClear 0x002000C5 s (awaitResponse n s).2 := hflags ▸ leaveLoop_poll_endsWithClear _ _ n s
  refine ⟨hsent.trace, hresponse.trace, hsent.loop, hresponse.loop, fun hline => ⟨?_, ?_⟩⟩
  · simpa only [hsticky] using hsent.star hline
  · simpa only [hsticky] using hresponse.star hline

/-! ### How many polls an await makes -/

theorem starReads_pollNext (s : State) : starReads (pollNext s).trace = starReads s.trace + 1 := by
  simp [starReads]

theorem starReads_leaveLoop (flags : Word) (s : State) : starReads (leaveLoop flags s).trace = starReads s.trace := by
  simp [starReads]

/-- A poll loop makes at most its budget of STAR reads (92_eei_decisions.md D10). -/
theorem poll_starReads_le (stop : Word → Bool) (n : Nat) (s : State) :
    starReads (poll stop n s).2.trace ≤ starReads s.trace + n := by
  induction n generalizing s with
  | zero => exact le_rfl
  | succ n ih =>
    have hnext := starReads_pollNext s
    simp only [poll]
    split
    case isTrue => simp only [hnext]; omega
    case isFalse =>
      have := ih (pollNext s)
      omega

/-- A poll loop that never stopped has spent its budget. -/
theorem poll_starReads_of_none {stop : Word → Bool} {n : Nat} {s : State} (h : (poll stop n s).1 = none) :
    starReads (poll stop n s).2.trace = starReads s.trace + n := by
  induction n generalizing s with
  | zero => rfl
  | succ n ih =>
    have hnext := starReads_pollNext s
    simp only [poll] at h ⊢
    split at h
    case isTrue => cases h
    case isFalse hstop =>
      rw [if_neg hstop, ih h]
      omega

/-- An await is exhausted only where its loop never stopped. -/
theorem poll_none_of_awaitSent {n : Nat} {s : State} (h : (awaitSent n s).1 = .budgetExhausted) :
    (poll (sentSeen s.params.layout) n s).1 = none := by
  simp only [awaitSent] at h
  split at h
  case h_1 => cases h
  case h_2 hnone => exact hnone

theorem poll_none_of_awaitResponse {n : Nat} {s : State} (h : (awaitResponse n s).1 = .budgetExhausted) :
    (poll (responseSeen s.params.layout) n s).1 = none := by
  simp only [awaitResponse] at h
  split at h
  case h_1 => exact absurd h (classify_ne_budgetExhausted _ _)
  case h_2 hnone => exact hnone

/-- Settles O10: the STAR reads of an await are those of its poll loop. -/
theorem awaitsReadWithinBudget : Obligations.AwaitsReadWithinBudget := by
  unfold Obligations.AwaitsReadWithinBudget
  intro n s
  simp only [awaitSent_state, awaitResponse_state, starReads_leaveLoop]
  exact ⟨poll_starReads_le _ n s, poll_starReads_le _ n s,
    fun h => poll_starReads_of_none (poll_none_of_awaitSent h),
    fun h => poll_starReads_of_none (poll_none_of_awaitResponse h)⟩

/-! ### The response reads -/

@[simp] theorem setResp_trace (q : Words4) (s : State) : (setResp q s).trace = s.trace := rfl

/-- Settles O11: each register read records itself, and the words read are put into the reply. -/
theorem responseReadsInOrder : Obligations.ResponseReadsInOrder := by
  unfold Obligations.ResponseReadsInOrder
  intro s
  refine ⟨rfl, rfl, ?_, rfl, ?_⟩
  · simp [readResponse]
  · simp [readResponse, responseWords]

/-! ### When a command word is refused -/

theorem engineBusy_iff (s : State) : engineBusy s = true ↔ s.irq.phase = .idle ∧ s.xfer.inFlight = true := by
  simp [engineBusy, seqRuns]

theorem issue_of_busy {s : State} (row : Row) (arg : Word) (n : Nat) (h : engineBusy s = true) :
    issue row arg n s = .refused .concurrent := by simp [issue, h]

/-- Settles O21: every instruction is its row's `issue`, which stops only where the engine is busy. -/
theorem commandsNeverFault : Obligations.CommandsNeverFault := by
  unfold Obligations.CommandsNeverFault
  intro i s
  rw [← engineBusy_iff]
  refine ⟨fun hbusy => ?_, fun hfree => ?_⟩
  · rw [exec_eq, issue_of_busy _ _ _ hbusy, onNext_refused]
  · rw [exec_eq, issue_of_free _ _ _ (by simpa using hfree), onNext_next]
    exact ⟨_, rfl⟩

end Sys2Proof.Machine
end

section
/-! PROOFS. The statements about the data path (41_datapath.md): what a short read programs (O22), how a drain ends (O23), and
the SCR correction (O24, O25). -/

namespace Sys2Proof.Machine

/-! ### What a short read programs -/

theorem blockExponent_eq_some_iff {n b : Nat} : blockExponent n = some b ↔ b ≤ 14 ∧ n = 2 ^ b := by
  simp only [blockExponent, List.find?_range_eq_some, List.mem_range, beq_iff_eq, Bool.not_eq_true', beq_eq_false_iff_ne]
  refine ⟨fun ⟨hn, hb, _⟩ => ⟨by omega, hn.symm⟩, fun ⟨hb, hn⟩ => ⟨hn.symm, by omega, fun j hj => ?_⟩⟩
  exact hn ▸ (Nat.pow_lt_pow_right (by decide) hj).ne

theorem blockExponent_eq_none_iff {n : Nat} : blockExponent n = none ↔ ∀ b ≤ 14, n ≠ 2 ^ b := by
  simp only [Option.eq_none_iff_forall_ne_some, ne_eq, blockExponent_eq_some_iff, not_and]

/-- The state after the three writes of a short read of 2^b bytes (41_datapath.md R160). -/
def shortReadWrites (b : Nat) (s : State) : State :=
  writeReg .dctrl (dctrlValue s.params.layout b)
    (writeReg .dlenr (BitVec.ofNat 32 (2 ^ b)) (writeReg .dtimer s.params.dtimer s))

theorem beginShortRead_of_busy {s : State} (n : Nat) (h : engineBusy s = true) :
    beginShortRead n s = .refused .concurrent := by simp [beginShortRead, h]

theorem beginShortRead_badByteCount {s : State} {n : Nat} (hfree : engineBusy s = false) (hn : ∀ b ≤ 14, n ≠ 2 ^ b) :
    beginShortRead n s = .refused .badByteCount := by
  simp [beginShortRead, hfree, blockExponent_eq_none_iff.mpr hn]

theorem beginShortRead_pow {s : State} {b : Nat} (hfree : engineBusy s = false) (hb : b ≤ 14) :
    beginShortRead (2 ^ b) s = .next (shortReadWrites b s) := by
  simp [beginShortRead, hfree, blockExponent_eq_some_iff.mpr ⟨hb, rfl⟩, shortReadWrites]

theorem dctrlValue_standard {b : Nat} (hb : b ≤ 14) :
    dctrlValue standardLayout b = (BitVec.ofNat 32 b <<< 4) ||| 3 := by
  have hall : ∀ b ≤ 14, dctrlValue standardLayout b = (BitVec.ofNat 32 b <<< 4) ||| 3 := by decide
  exact hall b hb

/-- In the default layout a written word without reserved bits is what the register then holds. -/
theorem writeReg_get_of_unreserved {r : Reg} {v : Word} {s : State} (hl : s.params.layout = standardLayout)
    (hp : r.port = none) (hv : v &&& standardRw.get r = v) : (writeReg r v s).regs.get r = v := by
  rw [writeReg_get_same hp, hl]
  exact hv

/-- No later write of a short read touches an earlier one's register, and none of the words has a reserved bit. -/
theorem shortReadWrites_regs {s : State} {b : Nat} (hl : s.params.layout = standardLayout) (hb : b ≤ 14) :
    (shortReadWrites b s).regs.dtimer = s.params.dtimer ∧ (shortReadWrites b s).regs.dlenr = BitVec.ofNat 32 (2 ^ b)
      ∧ (shortReadWrites b s).regs.dctrl = (BitVec.ofNat 32 b <<< 4) ||| 3 := by
  have hlength : ∀ b ≤ 14, BitVec.ofNat 32 (2 ^ b) &&& standardRw.dlenr = BitVec.ofNat 32 (2 ^ b) := by decide
  have hcontrol : ∀ b ≤ 14, ((BitVec.ofNat 32 b <<< 4) ||| 3) &&& standardRw.dctrl = (BitVec.ofNat 32 b <<< 4) ||| 3 := by
    decide
  have hdtimer : (shortReadWrites b s).regs.get .dtimer = s.params.dtimer := by
    rw [shortReadWrites, writeReg_get_ne _ _ (by decide) (by decide), writeReg_get_ne _ _ (by decide) (by decide)]
    exact writeReg_get_of_unreserved hl rfl BitVec.and_allOnes
  have hdlenr : (shortReadWrites b s).regs.get .dlenr = BitVec.ofNat 32 (2 ^ b) := by
    rw [shortReadWrites, writeReg_get_ne _ _ (by decide) (by decide)]
    exact writeReg_get_of_unreserved (by simpa using hl) rfl (hlength b hb)
  have hdctrl : (shortReadWrites b s).regs.get .dctrl = (BitVec.ofNat 32 b <<< 4) ||| 3 := by
    rw [shortReadWrites, hl, dctrlValue_standard hb]
    exact writeReg_get_of_unreserved (by simpa using hl) rfl (hcontrol b hb)
  exact ⟨hdtimer, hdlenr, hdctrl⟩

theorem shortReadWrites_trace (b : Nat) (s : State) :
    (shortReadWrites b s).trace = .write .dctrl (dctrlValue s.params.layout b) :: .write .dlenr (BitVec.ofNat 32 (2 ^ b))
      :: .write .dtimer s.params.dtimer :: s.trace := by
  simp only [shortReadWrites, writeReg_trace]

@[simp] theorem shortReadWrites_engine (b : Nat) (s : State) : (shortReadWrites b s).engine = s.engine := by
  simp only [shortReadWrites, writeReg_engine]

@[simp] theorem shortReadWrites_session (b : Nat) (s : State) : (shortReadWrites b s).session = s.session := by
  simp only [shortReadWrites, writeReg_session]

theorem engineBusy_of_quiet {s : State} (h : quiet s = true) : engineBusy s = s.xfer.inFlight := by
  simp only [quiet, Bool.and_eq_true] at h
  obtain ⟨⟨⟨⟨⟨hphase, _⟩, _⟩, _⟩, _⟩, _⟩ := h
  rw [engineBusy, seqRuns, hphase, Bool.true_and]

/-- ConfigurationRetrieval primes the data path with a short read of 2^3 bytes (43_sequencer.md R220). -/
theorem step_configPrime {s : State} (hquiet : quiet s = true) (hpc : s.seq.pc = .configPrime) :
    step s = onNext (beginShortRead (2 ^ 3) s) (State.setPc · .configScr) := by
  rw [step_of_quiet hquiet, seqStep, hpc]
  rfl

/-- Settles O22: the byte counts admitted are those with a block exponent, and an admitted call is its three writes. -/
theorem shortReadProgramsTheDataPath : Obligations.ShortReadProgramsTheDataPath := by
  unfold Obligations.ShortReadProgramsTheDataPath
  intro s hstd
  have hl := layout_of_standard hstd
  refine ⟨fun hfree => ⟨fun b hb => ?_, fun n => beginShortRead_badByteCount hfree⟩,
    fun hbusy n => beginShortRead_of_busy n hbusy, fun hquiet hpc => ?_⟩
  · obtain ⟨hdtimer, hdlenr, hdctrl⟩ := shortReadWrites_regs hl hb
    refine ⟨_, beginShortRead_pow hfree hb, hdtimer, hdlenr, hdctrl, ?_⟩
    rw [hdtimer, hdlenr, hdctrl, shortReadWrites_trace, hl, dctrlValue_standard hb]
  · rw [step_configPrime hquiet hpc, ← engineBusy_of_quiet hquiet]
    refine ⟨fun hbusy => ?_, fun hfree => ?_⟩
    · rw [beginShortRead_of_busy _ hbusy, onNext_refused]
    · obtain ⟨hdtimer, hdlenr, hdctrl⟩ := shortReadWrites_regs hl (show 3 ≤ 14 by decide)
      rw [beginShortRead_pow hfree (by decide), onNext_next]
      exact ⟨_, rfl, rfl, hdtimer, hdlenr, hdctrl, shortReadWrites_engine 3 s, shortReadWrites_session 3 s⟩

/-! ### How a drain ends -/

theorem pollAfter_succ (k : Nat) (s : State) : pollAfter (k + 1) s = pollNext (pollAfter k s) := by
  induction k generalizing s with
  | zero => rfl
  | succ k ih => exact ih (pollNext s)

@[simp] theorem pollAfter_params (k : Nat) (s : State) : (pollAfter k s).params = s.params := by
  induction k generalizing s with
  | zero => rfl
  | succ k ih => rw [pollAfter, ih, pollNext_params]

@[simp] theorem envNext_setLoop (p : EnvPort) (v : LoopCount) (s : State) :
    envNext p (s.setLoop v) = (envNext p s).setLoop v := by
  simp only [envNext, State.setLoop_env]
  split <;> rfl

@[simp] theorem point_setLoop (v : LoopCount) (s : State) : point (s.setLoop v) = (point s).setLoop v := by
  have hc : (seqRuns (s.setLoop v) && canInterrupt (s.setLoop v)) = (seqRuns s && canInterrupt s) := rfl
  simp only [point, hc, envNext_setLoop]
  split <;> rfl

@[simp] theorem writeReg_setLoop (r : Reg) (w : Word) (v : LoopCount) (s : State) :
    writeReg r w (s.setLoop v) = (writeReg r w s).setLoop v := by
  rw [writeReg, writeReg, ← point_setLoop]
  rfl

/-- Leaving an operation forgets its counters, whatever they were (10_state.md R41). -/
theorem leaveLoop_setLoop (flags : Word) (v : LoopCount) (s : State) : leaveLoop flags (s.setLoop v) = leaveLoop flags s := by
  rw [leaveLoop, writeReg_setLoop]
  rfl

/-- A status word on which a drain goes on polling: no terminal flag, and an empty FIFO (41_datapath.md R161). -/
def DrainIdle (l : Layout) (st : Word) : Prop := st &&& dataTermFlags l = 0 ∧ st.getLsbD l.rxfifoe = true

/-- Idle polls use up the budget and read no word. -/
theorem drainLoop_idle {e k m : Nat} {s : State} (he : 0 < e)
    (hidle : ∀ j < k, DrainIdle s.params.layout (pollWord j s)) :
    drainLoop e (k + m) [] s = drainLoop e m [] (pollAfter k s) := by
  induction k generalizing s with
  | zero => rw [Nat.zero_add, pollAfter]
  | succ k ih =>
    obtain ⟨hterm, hempty⟩ : DrainIdle s.params.layout (readValue .star s) := hidle 0 (by omega)
    have hrest : drainLoop e (k + m) [] (pollNext s) = drainLoop e m [] (pollAfter k (pollNext s)) :=
      ih fun j hj => by rw [pollNext_params]; exact hidle (j + 1) (by omega)
    rw [Nat.add_right_comm, pollAfter, ← hrest, drainLoop]
    simp [hterm, hempty, he.ne']

theorem drainLoop_terminal {e m : Nat} {ws : List Word} {s : State}
    (hterm : readValue .star s &&& dataTermFlags s.params.layout ≠ 0) :
    drainLoop e (m + 1) ws s = (some (readValue .star s), ws, pollNext s) := by
  rw [drainLoop]
  exact if_pos (by simpa using hterm)

/-- One pair of FIFO words is all that a drain of two words reads. -/
theorem drainLoop_pair {m : Nat} {s : State} (hterm : readValue .star s &&& dataTermFlags s.params.layout = 0)
    (hword : (readValue .star s).getLsbD s.params.layout.rxfifoe = false) :
    drainLoop 2 (m + 1) [] s =
      (none, (pullPair (pollNext s)).1, countWords (pullPair (pollNext s)).1 (pullPair (pollNext s)).2) := by
  simp [drainLoop, hterm, hword, pullPair]

section
variable {e n k : Nat} {s : State} (hidle : ∀ j < k, DrainIdle s.params.layout (pollWord j (startDrain s)))
include hidle

/-- In every layout a terminal flag after idle polls ends a drain with no word. -/
theorem drain_terminal (he : 0 < e) (hk : k < n)
    (hterm : pollWord k (startDrain s) &&& dataTermFlags s.params.layout ≠ 0) :
    drain e n s = ([], drainOutcome s.params (some (pollWord k (startDrain s))) 0 e,
      leaveLoop (dataFlags s.params.layout) (pollAfter (k + 1) (startDrain s))) := by
  obtain ⟨m, rfl⟩ := Nat.exists_eq_add_of_lt hk
  have hloop : drainLoop e (k + m + 1) [] (startDrain s) =
      (some (pollWord k (startDrain s)), [], pollAfter (k + 1) (startDrain s)) := by
    rw [Nat.add_assoc, drainLoop_idle he hidle, drainLoop_terminal (by rw [pollAfter_params]; exact hterm),
      ← pollAfter_succ, pollWord]
  simp only [drain, hloop, List.length_nil]

/-- In every layout a word in the FIFO after idle polls gives the pair. -/
theorem drain_pair (hk : k < n) (hterm : pollWord k (startDrain s) &&& dataTermFlags s.params.layout = 0)
    (hword : (pollWord k (startDrain s)).getLsbD s.params.layout.rxfifoe = false) :
    drain 2 n s = ((pullPair (pollAfter (k + 1) (startDrain s))).1, .success,
      leaveLoop (dataFlags s.params.layout) (pullPair (pollAfter (k + 1) (startDrain s))).2) := by
  obtain ⟨m, rfl⟩ := Nat.exists_eq_add_of_lt hk
  have hloop : drainLoop 2 (k + m + 1) [] (startDrain s) =
      (none, (pullPair (pollAfter (k + 1) (startDrain s))).1,
        countWords (pullPair (pollAfter (k + 1) (startDrain s))).1 (pullPair (pollAfter (k + 1) (startDrain s))).2) := by
    rw [Nat.add_assoc, drainLoop_idle (by decide) hidle,
      drainLoop_pair (by rw [pollAfter_params]; exact hterm) (by rw [pollAfter_params]; exact hword), ← pollAfter_succ]
  simp only [drain, hloop, countWords, leaveLoop_setLoop]
  rfl

/-- In every layout a budget spent on idle polls is a Timeout with no word. -/
theorem drain_exhausted (he : 0 < e) :
    drain e k s = ([], .timeout, leaveLoop (dataFlags s.params.layout) (pollAfter k (startDrain s))) := by
  have hloop : drainLoop e k [] (startDrain s) = (none, [], pollAfter k (startDrain s)) :=
    drainLoop_idle (m := 0) he hidle
  simp [drain, hloop, drainOutcome, he.ne']

end

/-- Settles O23: after idle polls the next poll, if the budget has one, is terminal or shows a word in the FIFO. -/
theorem drainOutcomes : Obligations.DrainOutcomes := by
  unfold Obligations.DrainOutcomes
  intro n k s hstd hidle
  have hl := layout_of_standard hstd
  have hterms : dataTermFlags s.params.layout = 0x0000012A := by rw [hl, dataTermFlags_standard]
  have hflags : dataFlags s.params.layout = 0x18000F3A := by rw [hl, dataFlags_standard]
  have hempty : s.params.layout.rxfifoe = 19 := by rw [hl]; rfl
  have hidle' : ∀ j < k, DrainIdle s.params.layout (pollWord j (startDrain s)) := by
    simpa only [DrainIdle, hterms, hempty] using hidle
  rw [← hterms, ← hflags, ← hempty]
  refine ⟨fun hk hterm => ?_, fun hk hterm hword => ?_, ?_⟩
  · rw [drain_terminal hidle' (by decide) hk hterm, drainOutcome, hl]
    rfl
  · rw [drain_pair hidle' hk hterm hword]
    exact ⟨rfl, rfl, rfl⟩
  · rintro rfl
    exact drain_exhausted hidle' (by decide)

/-! ### The SCR correction -/

@[simp] theorem loHalf_append (hi lo : Word) : loHalf (hi ++ lo) = lo := BitVec.extractLsb'_append_eq_right
@[simp] theorem hiHalf_append (hi lo : Word) : hiHalf (hi ++ lo) = hi := BitVec.extractLsb'_append_eq_left
theorem hiHalf_append_loHalf (d : DWord) : hiHalf d ++ loHalf d = d := BitVec.extractLsb'_append_extractLsb'

/-- Two words side by side are what 41_datapath.md R164 writes as `(hi << 32) | lo`. -/
theorem append_eq_shift_or (hi lo : Word) : hi ++ lo = (hi.setWidth 64 <<< 32) ||| lo.setWidth 64 := by
  simpa using BitVec.setWidth_append_eq_shiftLeft_setWidth_or (b := hi) (b' := lo) (w'' := 64)

/-! The four bytes of a reversed word, from the top (00_scope.md R8). -/

theorem bswap32_byte3 (w : Word) : (bswap32 w).extractLsb' 24 8 = w.extractLsb' 0 8 :=
  (BitVec.extractLsb'_append_eq_of_le (by decide)).trans <|
    (BitVec.extractLsb'_append_eq_of_le (by decide)).trans BitVec.extractLsb'_append_eq_left

theorem bswap32_byte2 (w : Word) : (bswap32 w).extractLsb' 16 8 = w.extractLsb' 8 8 :=
  (BitVec.extractLsb'_append_eq_of_le (by decide)).trans <|
    (BitVec.extractLsb'_append_eq_of_le (by decide)).trans BitVec.extractLsb'_append_eq_right

theorem bswap32_byte1 (w : Word) : (bswap32 w).extractLsb' 8 8 = w.extractLsb' 16 8 :=
  (BitVec.extractLsb'_append_eq_of_le (by decide)).trans BitVec.extractLsb'_append_eq_right

theorem bswap32_byte0 (w : Word) : (bswap32 w).extractLsb' 0 8 = w.extractLsb' 24 8 :=
  BitVec.extractLsb'_append_eq_right

@[simp] theorem bswap32_bswap32 (w : Word) : bswap32 (bswap32 w) = w :=
  calc bswap32 (bswap32 w)
    _ = w.extractLsb' 24 8 ++ w.extractLsb' 16 8 ++ w.extractLsb' 8 8 ++ w.extractLsb' 0 8 := by
      rw [bswap32, bswap32_byte0, bswap32_byte1, bswap32_byte2, bswap32_byte3]
    _ = w := by
      rw [BitVec.extractLsb'_append_extractLsb'_eq_extractLsb' (start₁ := 16) (by rfl),
        BitVec.extractLsb'_append_extractLsb'_eq_extractLsb' (start₁ := 8) (by rfl),
        BitVec.extractLsb'_append_extractLsb'_eq_extractLsb' (start₁ := 0) (by rfl)]
      exact BitVec.extractLsb'_eq_self

/-- Bit 18 lies in byte 2, which is byte 1 of the word that is reversed. -/
theorem bswap32_bit18 (w : Word) : (bswap32 w).getLsbD 18 = w.getLsbD 10 :=
  calc (bswap32 w).getLsbD 18
    _ = ((bswap32 w).extractLsb' 16 8).getLsbD 2 := by simp
    _ = (w.extractLsb' 8 8).getLsbD 2 := by rw [bswap32_byte2]
    _ = w.getLsbD 10 := by simp

theorem bswap64_append (hi lo : Word) : bswap64 (hi ++ lo) = bswap32 lo ++ bswap32 hi := by
  rw [bswap64, loHalf_append, hiHalf_append]

theorem bswap64_bswap64 (d : DWord) : bswap64 (bswap64 d) = d :=
  calc bswap64 (bswap32 (loHalf d) ++ bswap32 (hiHalf d))
    _ = hiHalf d ++ loHalf d := by rw [bswap64_append, bswap32_bswap32, bswap32_bswap32]
    _ = d := hiHalf_append_loHalf d

theorem scrCorrect_eq_bswap64 (r0 r1 : Word) : scrCorrect r0 r1 = bswap64 (r1 ++ r0) := (bswap64_append r1 r0).symm

theorem hiHalf_scrCorrect (r0 r1 : Word) : hiHalf (scrCorrect r0 r1) = bswap32 r0 := hiHalf_append _ _
theorem loHalf_scrCorrect (r0 r1 : Word) : loHalf (scrCorrect r0 r1) = bswap32 r1 := loHalf_append _ _

/-- The 4-bit capability is bit 18 of the SCR's high half (30_encoding.md R107). -/
theorem wide4_iff (scr : DWord) : wide4 scr = true ↔ (hiHalf scr).getLsbD 18 = true := by
  have hmask : (0x00040000 : Word) = BitVec.twoPow 32 18 := by decide
  have hne : BitVec.twoPow 32 18 ≠ 0#32 := by decide
  rw [wide4, hmask, BitVec.and_twoPow]
  cases (hiHalf scr).getLsbD 18 <;> simp [hne]

/-- Settles O24: the correction is two byte-reversed words side by side. -/
theorem scrCorrectionReversesTheBytes : Obligations.ScrCorrectionReversesTheBytes := by
  unfold Obligations.ScrCorrectionReversesTheBytes
  intro r0 r1
  rw [← append_eq_shift_or, ← append_eq_shift_or]
  exact ⟨bswap32_byte3 r0, bswap32_byte2 r0, bswap32_byte1 r0, bswap32_byte0 r0, rfl, scrCorrect_eq_bswap64 r0 r1,
    hiHalf_scrCorrect r0 r1, loHalf_scrCorrect r0 r1⟩

/-- Settles O25: the correction is a byte reversal, which undoes itself. -/
theorem scrCorrectionCanBeUndone : Obligations.ScrCorrectionCanBeUndone := by
  unfold Obligations.ScrCorrectionCanBeUndone
  refine ⟨bswap64_bswap64, fun r0 r1 => ?_⟩
  have hundo : bswap64 (scrCorrect r0 r1) = r1 ++ r0 := by rw [scrCorrect_eq_bswap64, bswap64_bswap64]
  have hwide : wide4 (scrCorrect r0 r1) = true ↔ (bswap32 r0).getLsbD 18 = true := by rw [wide4_iff, hiHalf_scrCorrect]
  rw [← append_eq_shift_or, hundo, loHalf_append, hiHalf_append]
  exact ⟨rfl, rfl, rfl, hwide, bswap32_bit18 r0 ▸ hwide⟩

end Sys2Proof.Machine
end

section
/-! PROOFS. The statements about the command words (42_commands.md): what each completes with and stores (O12 to O18), what it
stores where ENV has answered (O19), and what it leaves alone (O20). -/

namespace Sys2Proof.Machine

/-! ### What a word leaves -/

/-- The state that `command` leaves for a word, before the word's session register is stored (40_engine.md R147). -/
def commanded (i : Instr) (s : State) : State := command i.row i.arg (budgetOf i s.params) s

/-- The session register a word's rule names takes the response; every other word discards it (42_commands.md). -/
def storedIn : Instr → Words4 → Session → Session
  | .cmd1 _, q, x | .acmd41 _, q, x => { x with ocr := some q.w0 }
  | .cmd2 _, q, x => { x with cid := some q }
  | .cmd3 _, q, x => { x with rca := some q.w0 }
  | .cmd9 _, q, x => { x with csd := some q }
  | .cmd0 _, _, x | .cmd7 _, _, x | .cmd8 _, _, x | .cmd12 _, _, x | .cmd13 _, _, x | .cmd16 _, _, x | .cmd55 _, _, x
  | .acmd6 _, _, x | .acmd51 _, _, x => x

theorem storedIn_setLastStatus (i : Instr) (q : Words4) (x : Session) (v : Option Word) :
    storedIn i q { x with lastStatus := v } = { storedIn i q x with lastStatus := v } := by
  cases i <;> rfl

theorem keepResponse_eq (f : Words4 → Session → Session) (s : State) :
    keepResponse f s =
      s.setSession (if s.engine.reply.out = .success then f s.engine.reply.resp s.session else s.session) := by
  unfold keepResponse
  split
  next h => rw [if_pos h]
  all_goals
    next h => rw [if_neg (by simp [h])]; rfl

/-- Every word stores by `keepResponse`; one that discards its response changes nothing so. -/
theorem storeOf_eq_keepResponse (i : Instr) (s : State) : storeOf i s = keepResponse (storedIn i) s := by
  cases i with
  | cmd1 | cmd2 | cmd3 | cmd9 | acmd41 => rfl
  | cmd0 | cmd7 | cmd8 | cmd12 | cmd13 | cmd16 | cmd55 | acmd6 | acmd51 =>
    rw [keepResponse_eq]
    exact congrArg s.setSession (ite_self s.session).symm

/-- Storing a response changes the session and nothing else. -/
theorem storeOf_eq (i : Instr) (s : State) : storeOf i s = s.setSession (storeOf i s).session := by
  rw [storeOf_eq_keepResponse, keepResponse_eq]
  rfl

theorem storeOf_session (i : Instr) {s : State} {x : Session} {v : Option Word} (h : s.session = { x with lastStatus := v }) :
    (storeOf i s).session =
      { (if s.engine.reply.out = .success then storedIn i s.engine.reply.resp x else x) with lastStatus := v } := by
  rw [storeOf_eq_keepResponse, keepResponse_eq, State.setSession_session, h]
  split
  · exact storedIn_setLastStatus i _ x v
  · rfl

theorem exec_of_free {s : State} (i : Instr) (hfree : engineBusy s = false) :
    exec i s = .next (storeOf i (commanded i s)) := by
  rw [exec_eq, issue_of_free _ _ _ hfree, onNext_next, commanded]

theorem eq_of_exec_eq_next {i : Instr} {s t : State} (h : exec i s = .next t) : t = storeOf i (commanded i s) := by
  rw [exec_eq] at h
  obtain ⟨u, hu, rfl⟩ := onNext_eq_next h
  obtain ⟨-, rfl⟩ := issue_eq_next hu
  rfl

/-! ### What a wait and a response read leave -/

/-- A wait leaves its flags' bits in ICR and the loop counters unwritten (40_engine.md R149). -/
theorem awaitRow_icr (row : Row) (n : Nat) (s : State) :
    (awaitRow row n s).2.regs.icr = cmdFlags s.params.layout &&& s.params.layout.rw.icr := by
  obtain ⟨stop, m, h⟩ := awaitRow_state row n s
  have hicr := writeReg_get_same (r := .icr) rfl (cmdFlags s.params.layout) (poll stop m s).2
  rw [(poll_kept stop m s).params] at hicr
  rw [h, leaveLoop_regs]
  exact hicr

theorem awaitRow_loop (row : Row) (n : Nat) (s : State) : (awaitRow row n s).2.loop = LoopCount.idle := by
  obtain ⟨stop, m, h⟩ := awaitRow_state row n s
  rw [h, leaveLoop_loop]

theorem readResponse_session (kind : RespKind) (s : State) : (readResponse kind s).session = s.session := by
  cases kind <;> simp [readResponse, setResp]

theorem readResponse_loop (kind : RespKind) (s : State) : (readResponse kind s).loop = s.loop := by
  cases kind <;> simp [readResponse, setResp]

/-- A property of what a word's `command` leaves holds if its wait ends with it and reading the response keeps it: putting the
outcome into the reply changes nothing else. -/
theorem commanded_induct {P : State → Prop} (i : Instr) (s : State) (hawaited : P (awaited i s))
    (hread : P (awaited i s) → P (readResponse i.row.kind (awaited i s))) (hout : ∀ o u, P u → P (setOut o u)) :
    P (commanded i s) := by
  refine hout (outcomeOf i s) _ ?_
  change P (if outcomeOf i s = .success then readResponse i.row.kind (awaited i s) else awaited i s)
  split
  · exact hread hawaited
  · exact hawaited

theorem commanded_loop (i : Instr) (s : State) : (commanded i s).loop = LoopCount.idle :=
  commanded_induct (P := fun u => u.loop = LoopCount.idle) i s (awaitRow_loop _ _ _)
    (fun h => (readResponse_loop _ _).trans h) fun _ _ h => h

theorem commanded_icr (i : Instr) (s : State) :
    (commanded i s).regs.icr = cmdFlags s.params.layout &&& s.params.layout.rw.icr := by
  refine commanded_induct (P := fun u => u.regs.icr = cmdFlags s.params.layout &&& s.params.layout.rw.icr) i s ?_
    (fun h => Eq.trans ?_ h) fun _ _ h => h
  · rw [awaited, awaitRow_icr, sent, send_params]
  · exact (readResponse_kept i.row.kind (awaited i s)).regs .icr (by cases i.row.kind <;> decide)

theorem commanded_lastStatus (i : Instr) (s : State) :
    (commanded i s).session.lastStatus = (awaited i s).session.lastStatus :=
  commanded_induct (P := fun u => u.session.lastStatus = (awaited i s).session.lastStatus) i s rfl
    (fun h => (congrArg Session.lastStatus (readResponse_session _ _)).trans h) fun _ _ h => h

theorem commanded_resp (i : Instr) (s : State) :
    (commanded i s).engine.reply.resp =
      if outcomeOf i s = .success then (readResponse i.row.kind (awaited i s)).engine.reply.resp else s.engine.reply.resp := by
  have hawait : (awaited i s).engine = s.engine := by rw [awaited, awaitRow_engine, sent, send_engine]
  rw [← hawait]
  exact command_resp i.row i.arg (budgetOf i s.params) s

/-! ### What a word completes with -/

/-- What a word that gives the next state `t` has done: it is written to the two command registers, its outcome and response
are in the reply, its session register is stored on Success, and the rest is kept. -/
structure Completes (i : Instr) (s t : State) : Prop where
  written : wordWritten i s t
  out : t.engine.reply.out = outcomeOf i s
  resp : t.engine.reply.resp =
    if t.engine.reply.out = .success then (readResponse i.row.kind (awaited i s)).engine.reply.resp else s.engine.reply.resp
  session : t.session =
    { (if t.engine.reply.out = .success then storedIn i t.engine.reply.resp s.session else s.session) with
      lastStatus := t.session.lastStatus }
  lastStatus : t.session.lastStatus = (awaited i s).session.lastStatus
  frame : Kept (commandRegs i.row.kind) s (t.setSession s.session)
  loop : t.loop = LoopCount.idle
  icr : t.regs.icr = cmdFlags s.params.layout &&& s.params.layout.rw.icr

theorem storeOf_commanded_completes (i : Instr) (s : State) : Completes i s (storeOf i (commanded i s)) := by
  have hkept : Kept (commandRegs i.row.kind) s (commanded i s) := command_kept _ _ _ _
  have hsession := storeOf_session i hkept.session
  have hlast : (storeOf i (commanded i s)).session.lastStatus = (commanded i s).session.lastStatus := by rw [hsession]
  rw [← hlast] at hsession
  rw [storeOf_eq]
  exact {
    written := ⟨command_argr _ _ _ _, command_cmdr _ _ _ _⟩
    out := rfl
    resp := commanded_resp i s
    session := hsession
    lastStatus := hlast.trans (commanded_lastStatus i s)
    frame := { hkept with session := rfl }
    loop := commanded_loop i s
    icr := commanded_icr i s }

theorem exec_completes {i : Instr} {s t : State} (h : exec i s = .next t) : Completes i s t :=
  eq_of_exec_eq_next h ▸ storeOf_commanded_completes i s

theorem exists_completes {s : State} (i : Instr) (hfree : engineBusy s = false) : ∃ t, exec i s = .next t ∧ Completes i s t :=
  ⟨_, exec_of_free i hfree, storeOf_commanded_completes i s⟩

theorem acceptR3_of_ne {sd : SdResp} (h : sd ≠ .r3) (p : Params) (o : EngOutcome) : acceptR3 p sd o = o := by
  simp [acceptR3, h]

theorem acceptR3_r3 (p : Params) (o : EngOutcome) :
    acceptR3 p .r3 o = if o = .crcFailure ∧ p.r3CrcAccept = true then .success else o := by
  simp [acceptR3]

/-- A word with a response is awaited with `await_response` (40_engine.md R147). -/
theorem awaitRow_of_response {row : Row} (h : row.kind ≠ .none) (n : Nat) (s : State) :
    awaitRow row n s = awaitResponse n s := by
  unfold awaitRow
  split
  case h_1 hnone => exact absurd hnone h
  all_goals rfl

theorem budgetOf_of_ne {i : Instr} (h : i.row.index ≠ 12) (p : Params) : budgetOf i p = p.respBudget := if_neg h

section
variable {i : Instr} {s t : State}

theorem Completes.out_of_response (h : Completes i s t) (hkind : i.row.kind ≠ .none) (hsd : i.row.sdResp ≠ .r3) :
    t.engine.reply.out = (awaitResponse (budgetOf i s.params) (sent i s)).1 := by
  rw [h.out, outcomeOf, acceptR3_of_ne hsd, awaitRow_of_response hkind]

theorem Completes.resp_of_short (h : Completes i s t) (hkind : i.row.kind = .short) (hout : t.engine.reply.out = .success) :
    t.engine.reply.resp.w0 = readValue .resp1 (awaited i s) := by
  rw [h.resp, if_pos hout, hkind]
  rfl

theorem Completes.resp_of_long (h : Completes i s t) (hkind : i.row.kind = .long) (hout : t.engine.reply.out = .success) :
    t.engine.reply.resp = responseWords (awaited i s) := by
  rw [h.resp, if_pos hout, hkind]
  rfl

theorem Completes.session_of_long (h : Completes i s t) (hkind : i.row.kind = .long) :
    t.session =
      { (if t.engine.reply.out = .success then storedIn i (responseWords (awaited i s)) s.session else s.session) with
        lastStatus := t.session.lastStatus } := by
  refine h.session.trans ?_
  split
  case isTrue hout => rw [h.resp_of_long hkind hout]
  case isFalse => rfl

theorem Completes.session_of_success (h : Completes i s t) (hout : t.engine.reply.out = .success) :
    t.session = { storedIn i t.engine.reply.resp s.session with lastStatus := t.session.lastStatus } := by
  simpa only [if_pos hout] using h.session

/-- A word that stores no response writes `last_status` alone. -/
theorem Completes.session_of_discards (h : Completes i s t) (hstore : ∀ q x, storedIn i q x = x) :
    t.session = { s.session with lastStatus := t.session.lastStatus } := by
  simpa only [hstore, ite_self] using h.session

end

/-- Settles O12: a word without response is awaited with `await_sent`, and its read of the response does nothing. -/
theorem cmdZeroCompletes : Obligations.CmdZeroCompletes := by
  unfold Obligations.CmdZeroCompletes
  intro a s hfree
  obtain ⟨t, ht, h⟩ := exists_completes (.cmd0 a) hfree
  refine ⟨t, ht, h.written, ?_, ?_, h.frame.regs .resp1 (by simp [commandRegs, respRegs, Instr.row]),
    h.session_of_discards fun _ _ => rfl⟩
  · rw [h.out, outcomeOf, acceptR3_of_ne (by simp [Instr.row])]
    simp [awaitRow, Instr.row, sent]
  · have hnone : (readResponse (Instr.cmd0 a).row.kind (awaited (.cmd0 a) s)).engine = s.engine := by
      simp [readResponse, Instr.row, awaited, awaitRow_engine, sent]
    rw [h.resp, hnone, ite_self]

/-- A word with a short response that no rule stores: its wait's outcome, its response in the reply, the session kept. -/
theorem exists_completes_discarding {i : Instr} {s : State} (hfree : engineBusy s = false) (hkind : i.row.kind = .short)
    (hsd : i.row.sdResp ≠ .r3) (hstore : ∀ q x, storedIn i q x = x) :
    ∃ t, exec i s = .next t
      ∧ wordWritten i s t
      ∧ t.engine.reply.out = (awaitResponse (budgetOf i s.params) (sent i s)).1
      ∧ (t.engine.reply.out = .success → t.engine.reply.resp.w0 = readValue .resp1 (awaited i s))
      ∧ t.session = { s.session with lastStatus := t.session.lastStatus } := by
  obtain ⟨t, ht, h⟩ := exists_completes i hfree
  exact ⟨t, ht, h.written, h.out_of_response (by simp [hkind]) hsd, h.resp_of_short hkind, h.session_of_discards hstore⟩

/-- Settles O13: the three words have a short response, which no rule stores. -/
theorem addressedCommandsComplete : Obligations.AddressedCommandsComplete := by
  unfold Obligations.AddressedCommandsComplete
  rintro a s i hfree (rfl | rfl | rfl)
  all_goals exact exists_completes_discarding hfree rfl nofun fun _ _ => rfl

/-- Settles O14: the four words have a short response, which no rule stores. -/
theorem configurationCommandsComplete : Obligations.ConfigurationCommandsComplete := by
  unfold Obligations.ConfigurationCommandsComplete
  rintro a s i hfree (rfl | rfl | rfl | rfl)
  all_goals exact exists_completes_discarding hfree rfl nofun fun _ _ => rfl

/-- Settles O15: the word's response is not stored, its budget is that of index 12, and the record is in the frame. -/
theorem stopTransmissionCompletes : Obligations.StopTransmissionCompletes := by
  unfold Obligations.StopTransmissionCompletes
  intro a s hfree
  obtain ⟨t, ht, hwritten, hout, hresp, hsession⟩ :=
    exists_completes_discarding (i := .cmd12 a) hfree rfl nofun fun _ _ => rfl
  exact ⟨t, ht, hwritten, hout, hresp, hsession, (exec_completes ht).frame.xfer⟩

/-- Settles O16: on Success the reply holds the four words read, and the two words store the reply. -/
theorem longResponsesAreStored : Obligations.LongResponsesAreStored := by
  unfold Obligations.LongResponsesAreStored
  intro a s hfree
  obtain ⟨t, ht, h⟩ := exists_completes (.cmd2 a) hfree
  obtain ⟨u, hu, k⟩ := exists_completes (.cmd9 a) hfree
  refine ⟨⟨t, ht, h.written, h.out_of_response nofun nofun, (h.session_of_long rfl).trans ?_⟩,
    ⟨u, hu, k.written, k.out_of_response nofun nofun, (k.session_of_long rfl).trans ?_⟩⟩
  all_goals split <;> rfl

/-- Settles O17: on Success the reply holds the word read, and CMD3 stores it whole. -/
theorem relativeAddressIsStoredWhole : Obligations.RelativeAddressIsStoredWhole := by
  unfold Obligations.RelativeAddressIsStoredWhole
  intro a s hfree
  obtain ⟨t, ht, h⟩ := exists_completes (.cmd3 a) hfree
  refine ⟨t, ht, h.written, h.out_of_response nofun nofun, h.session.trans ?_⟩
  split
  case isTrue hout => rw [← h.resp_of_short rfl hout]; rfl
  case isFalse => rfl

/-- Settles O18: both words have an R3 response, whose acceptance is `acceptR3`, and both store it as the OCR. -/
theorem operatingConditionIsStored : Obligations.OperatingConditionIsStored := by
  unfold Obligations.OperatingConditionIsStored
  intro a s i hfree hi
  obtain ⟨t, ht, h⟩ := exists_completes i hfree
  have hkind : i.row.kind = .short := by rcases hi with rfl | rfl <;> rfl
  have hsd : i.row.sdResp = .r3 := by rcases hi with rfl | rfl <;> rfl
  have hindex : i.row.index ≠ 12 := by rcases hi with rfl | rfl <;> simp [Instr.row]
  have hstore (q : Words4) (x : Session) : storedIn i q x = { x with ocr := some q.w0 } := by
    rcases hi with rfl | rfl <;> rfl
  refine ⟨t, ht, h.written, ?_, h.session.trans ?_⟩
  · rw [h.out, outcomeOf, hsd, acceptR3_r3, awaitRow_of_response (by simp [hkind]), budgetOf_of_ne hindex]
  · split
    case isTrue hout => rw [hstore, h.resp_of_short hkind hout]
    case isFalse => rfl

/-! ### What a word stores where ENV has answered -/

/-- Where the line cannot reach the handler a preemption point does nothing, whichever agent runs. -/
theorem point_of_lineDown {s : State} (h : canInterrupt s = false) : point s = s := point_of_quiet (by simp [h])

theorem canInterrupt_point (s : State) : canInterrupt (point s) = canInterrupt s := by simp [canInterrupt]

theorem canInterrupt_readNext {r : Reg} (hr : r ≠ .maskr) (s : State) : canInterrupt (readNext r s) = canInterrupt s :=
  (readNext_kept r s).canInterrupt_eq (by simp [hr.symm])

theorem canInterrupt_writeReg {r : Reg} (hr : r ≠ .maskr) (v : Word) (s : State) :
    canInterrupt (writeReg r v s) = canInterrupt s :=
  (writeReg_kept r v s).canInterrupt_eq (by simp [hr.symm])

theorem canInterrupt_rmw {r : Reg} (hp : r.port = none) (hr : r ≠ .maskr) (mask v : Word) (s : State) :
    canInterrupt (rmw r mask v s) = canInterrupt s :=
  (rmw_kept hp mask v s).canInterrupt_eq (by simp [hr.symm])

section
variable {s : State} {r : Reg} (hline : canInterrupt s = false) (hr : r ≠ .maskr)
include hline hr

/-- Where the line cannot reach the handler a write asks nothing of ENV. -/
theorem writeReg_env (v : Word) : (writeReg r v s).env = s.env := by
  have hquiet := (canInterrupt_writeReg hr v s).trans hline
  rw [writeReg, canInterrupt_point] at hquiet
  rw [writeReg, point_of_lineDown hquiet]
  rfl

/-- Where the line cannot reach the handler a read-modify-write asks nothing of ENV and shows no new flags. -/
theorem rmw_env_star (hp : r.port = none) (mask v : Word) :
    (rmw r mask v s).env = s.env ∧ (rmw r mask v s).regs.star = s.regs.star := by
  have hread : readNext r s = s.emit (.read r (readValue r s)) := by
    rw [readNext, hp]
    exact point_of_lineDown hline
  have hquiet := (canInterrupt_rmw hp hr mask v s).trans hline
  rw [rmw, canInterrupt_point] at hquiet
  rw [rmw, point_of_lineDown hquiet, hread]
  exact ⟨rfl, Regs.get_set_ne (q := .star) _ _ (star_ne_of_port hp).symm⟩

end

theorem send_env_star (row : Row) (arg : Word) {s : State} (hline : canInterrupt s = false) :
    (send row arg s).env = s.env ∧ (send row arg s).regs.star = s.regs.star := by
  have hline' := (canInterrupt_writeReg (r := .argr) nofun arg s).trans hline
  obtain ⟨henv, hstar⟩ := rmw_env_star (r := .cmdr) hline' nofun rfl (cmdFields s.params.layout)
    (cmdw s.params.layout row.index row.kind)
  exact ⟨henv.trans (writeReg_env (r := .argr) hline nofun arg), hstar.trans (writeReg_star arg hline nofun)⟩

/-- The line cannot reach the handler, and ENV's script is `l`: the answers of `l` are the next that ENV gives. -/
structure Scripted (l : List (EnvPort × Word)) (s : State) : Prop where
  lineDown : canInterrupt s = false
  script : s.env.script = l

section
variable {l : List (EnvPort × Word)} {s : State} {p : EnvPort} {w : Word} {r : Reg}

theorem Scripted.envValue_eq (h : Scripted ((p, w) :: l) s) : envValue p s = w := by
  simp [envValue, h.script]

theorem Scripted.readValue_eq (h : Scripted ((p, w) :: l) s) (hp : r.port = some p) (hr : r ≠ .star) :
    readValue r s = w := by
  simp [readValue, hp, hr, h.envValue_eq]

theorem Scripted.readValue_star (h : Scripted ((.star, w) :: l) s) : readValue .star s = starShown w s := by
  simp [readValue, Reg.port, h.envValue_eq]

/-- A read of a register that ENV answers uses up the answer. -/
theorem Scripted.after_readNext (h : Scripted ((p, w) :: l) s) (hp : r.port = some p) : Scripted l (readNext r s) := by
  have hr : r ≠ .maskr := by rintro rfl; cases hp
  have hline := (canInterrupt_readNext hr s).trans h.lineDown
  refine ⟨hline, ?_⟩
  simp only [readNext, hp, canInterrupt_point] at hline ⊢
  rw [point_of_lineDown hline]
  simp [envNext, h.script]

theorem Scripted.after_pollNext (h : Scripted ((.star, w) :: l) s) : Scripted l (pollNext s) :=
  ⟨(h.after_readNext (r := .star) rfl).lineDown, (h.after_readNext (r := .star) rfl).script⟩

theorem Scripted.after_leaveLoop (h : Scripted l s) (flags : Word) : Scripted l (leaveLoop flags s) :=
  ⟨(canInterrupt_writeReg (r := .icr) nofun flags s).trans h.lineDown,
    (congrArg Env.script (writeReg_env (r := .icr) h.lineDown nofun flags)).trans h.script⟩

theorem Scripted.after_send (h : Scripted l s) (row : Row) (arg : Word) : Scripted l (send row arg s) :=
  ⟨((send_kept row arg s).canInterrupt_eq (by decide)).trans h.lineDown,
    (congrArg Env.script (send_env_star row arg h.lineDown).1).trans h.script⟩

theorem Scripted.responseWords_eq {w1 w2 w3 : Word}
    (h : Scripted ((.resp1, w) :: (.resp2, w1) :: (.resp3, w2) :: (.resp4, w3) :: l) s) :
    responseWords s = ⟨w, w1, w2, w3⟩ := by
  have h1 := h.after_readNext (r := .resp1) rfl
  have h2 := h1.after_readNext (r := .resp2) rfl
  have h3 := h2.after_readNext (r := .resp3) rfl
  rw [responseWords, h.readValue_eq (r := .resp1) rfl nofun, h1.readValue_eq (r := .resp2) rfl nofun,
    h2.readValue_eq (r := .resp3) rfl nofun, h3.readValue_eq (r := .resp4) rfl nofun]

end

theorem budgetOf_pos (i : Instr) (p : Params) : 0 < budgetOf i p := by
  unfold budgetOf
  split <;> exact Nat.succ_pos _

section
variable {i : Instr} {s : State} {st : Word} {l : List (EnvPort × Word)} (h : Scripted ((.star, st) :: l) s)
include h

/-- `send` uses up no answer and leaves the sticky flags, so the first poll shows the script's status word. -/
theorem Scripted.pollWord_sent : pollWord 0 (sent i s) = starShown st s := by
  have hsent : Scripted ((.star, st) :: l) (sent i s) := h.after_send _ _
  have hstar : (sent i s).regs.star = s.regs.star := (send_env_star _ _ h.lineDown).2
  have hparams : (sent i s).params = s.params := send_params _ _ _
  rw [pollWord, pollAfter, hsent.readValue_star, starShown, hstar, hparams, starShown]

theorem Scripted.awaitRow_sent (hkind : i.row.kind ≠ .none) (hseen : responseSeen s.params.layout (starShown st s) = true) :
    awaitRow i.row (budgetOf i s.params) (sent i s) =
      (classify s.params.layout (starShown st s), leaveLoop (cmdFlags s.params.layout) (pollNext (sent i s))) := by
  have hparams : (sent i s).params = s.params := send_params _ _ _
  rw [← h.pollWord_sent (i := i), ← hparams] at hseen ⊢
  rw [awaitRow_of_response hkind]
  exact awaitResponse_stops (budgetOf_pos _ _) nofun hseen

/-- Where the first poll of a word's wait shows a status word of Success, that word is `last_status`, and the rest of the
script is left for the response. -/
theorem Scripted.exists_completes (hfree : engineBusy s = false) (hkind : i.row.kind ≠ .none)
    (hseen : responseSeen s.params.layout (starShown st s) = true)
    (hclass : classify s.params.layout (starShown st s) = .success) :
    ∃ t, exec i s = .next t ∧ Completes i s t ∧ t.engine.reply.out = .success
      ∧ t.session.lastStatus = some (starShown st s) ∧ Scripted l (awaited i s) := by
  obtain ⟨t, ht, hdone⟩ := Machine.exists_completes i hfree
  have hwait := h.awaitRow_sent hkind hseen
  have hawaited : awaited i s = leaveLoop (cmdFlags s.params.layout) (pollNext (sent i s)) := congrArg Prod.snd hwait
  refine ⟨t, ht, hdone, ?_, ?_, ?_⟩
  · rw [hdone.out, outcomeOf, hwait, hclass]
    exact if_neg fun hcrc => nomatch hcrc.1
  · rw [hdone.lastStatus, hawaited, leaveLoop_session, pollNext_session]
    exact congrArg some h.pollWord_sent
  · rw [hawaited]
    exact (h.after_send _ _).after_pollNext.after_leaveLoop _

end

/-- A status word with CMDREND or BUSYD0END that ends a wait with Success still does where STAR holds sticky flags, unless
CTIMEOUT or CCRCFAIL is among them (10_state.md R60). -/
theorem answered_success {st star : Word} (hstar : star &&& 0x00000005 = 0) (hterm : st &&& 0x00200040 ≠ 0)
    (hpath : st.getLsbD 13 = false) (htimeout : st.getLsbD 2 = false) (hcrc : st.getLsbD 0 = false) :
    responseSeen standardLayout (st ||| (star &&& 0x1FE00FFF)) = true
      ∧ classify standardLayout (st ||| (star &&& 0x1FE00FFF)) = .success := by
  have hshown (n : Nat) : (st ||| (star &&& 0x1FE00FFF)).getLsbD n =
      (st.getLsbD n || (star.getLsbD n && (0x1FE00FFF : Word).getLsbD n)) := by rw [BitVec.getLsbD_or, BitVec.getLsbD_and]
  have hclear (n : Nat) : (star.getLsbD n && (0x00000005 : Word).getLsbD n) = false := by
    rw [← BitVec.getLsbD_and, hstar]
    exact BitVec.getLsbD_zero
  have hstar2 : star.getLsbD 2 = false := (Bool.and_true _).symm.trans (hclear 2)
  have hstar0 : star.getLsbD 0 = false := (Bool.and_true _).symm.trans (hclear 0)
  refine ⟨(responseSeen_standard_eq_true_iff _).mpr ⟨fun hnone => hterm ?_, ?_⟩, ?_⟩
  · obtain ⟨hst, -⟩ := BitVec.or_eq_zero_iff.mp (BitVec.and_or_distrib_right.symm.trans hnone)
    calc st &&& 0x00200040 = st &&& 0x00200045 &&& 0x00200040 := (BitVec.and_assoc st 0x00200045 0x00200040).symm
      _ = 0 := by rw [hst]; exact BitVec.zero_and
  · rw [hshown, hpath]
    exact Bool.and_false _
  · rw [classify_standard, hshown, hshown, htimeout, hcrc, hstar2, hstar0]
    rfl

/-- Settles O19: the first poll reads the script's status word, and the response reads take the answers after it. -/
theorem answeredCommandsStoreTheAnswer : Obligations.AnsweredCommandsStoreTheAnswer := by
  unfold Obligations.AnsweredCommandsStoreTheAnswer
  intro a st r0 r1 r2 r3 rest s hstd hfree hline hstar hterm hpath htimeout hcrc
  have hl := layout_of_standard hstd
  have hshown : starShown st s = st ||| (s.regs.star &&& 0x1FE00FFF) := by rw [starShown, hl, stickyFlags_standard]
  obtain ⟨hseen, hclass⟩ := answered_success hstar hterm hpath htimeout hcrc
  rw [← hl, ← hshown] at hseen hclass
  refine ⟨fun hscript => ?_, fun hscript => ?_⟩
  · obtain ⟨t, ht, hdone, hout, hlast, hrest⟩ :=
      Scripted.exists_completes (i := .cmd3 a) ⟨hline, hscript⟩ hfree nofun hseen hclass
    have hword : t.engine.reply.resp.w0 = r0 := (hdone.resp_of_short rfl hout).trans (hrest.readValue_eq rfl nofun)
    refine ⟨t, ht, ?_, hlast.trans (congrArg some hshown)⟩
    rw [hdone.session_of_success hout, ← hword]
    rfl
  · obtain ⟨t, ht, hdone, hout, hlast, hrest⟩ :=
      Scripted.exists_completes (i := .cmd2 a) ⟨hline, hscript⟩ hfree nofun hseen hclass
    have hwords : t.engine.reply.resp = ⟨r0, r1, r2, r3⟩ := (hdone.resp_of_long rfl hout).trans hrest.responseWords_eq
    refine ⟨t, ht, ?_, hlast.trans (congrArg some hshown)⟩
    rw [hdone.session_of_success hout, ← hwords]
    rfl

/-! ### What a word leaves alone -/

/-- The registers that `command` touches are those that a word's frame leaves out. -/
theorem not_mem_commandRegs {kind : RespKind} {r : Reg} (hargr : r ≠ .argr) (hcmdr : r ≠ .cmdr) (hicr : r ≠ .icr)
    (hstar : r ≠ .star) (hshort : r = .resp1 → kind = .none)
    (hlong : r = .resp2 ∨ r = .resp3 ∨ r = .resp4 → kind ≠ .long) :
    r ∉ commandRegs kind := by
  cases kind with
  | none => simp [commandRegs, respRegs, *]
  | short =>
    have hresp1 : r ≠ .resp1 := fun h => nomatch hshort h
    simp [commandRegs, respRegs, *]
  | long =>
    have hresp1 : r ≠ .resp1 := fun h => nomatch hshort h
    obtain ⟨hresp2, hresp3, hresp4⟩ : r ≠ .resp2 ∧ r ≠ .resp3 ∧ r ≠ .resp4 := by
      simpa only [ne_eq, not_true_eq_false, imp_false, not_or] using hlong
    simp [commandRegs, respRegs, *]

/-- Settles O20: the frame of `command`, and the one session register that the word stores. -/
theorem commandFrame : Obligations.CommandFrame := by
  unfold Obligations.CommandFrame
  intro i s t hexec
  have hdone := exec_completes hexec
  have hstores := exec_stores hexec
  have hsession := hstores.kept
  obtain ⟨hparams, hxfer, hseq, hcalls, hrouted, hphase, hslot, happ, -, hregs⟩ := hdone.frame
  refine ⟨fun r hargr hcmdr hicr hstar hshort hlong => hregs r (not_mem_commandRegs hargr hcmdr hicr hstar hshort hlong),
    fun hstd => ?_, hdone.loop, hparams, hxfer, hseq, hcalls, hrouted, hphase, hslot, happ,
    by rw [hsession], by rw [hsession], by rw [hsession], by rw [hsession], by rw [hsession],
    fun hne => by_contra fun h => ?_, fun hne => by_contra fun h => ?_, fun hne => by_contra fun h => ?_,
    fun hne hne' => by_contra fun h => ?_⟩
  · rw [hdone.icr, layout_of_standard hstd]
    decide
  · exact (hstores.cid h).elim hne
  · exact (hstores.csd h).elim hne
  · exact (hstores.rca h).elim hne
  · obtain ⟨a, ha | ha⟩ := hstores.ocr h
    · exact hne' a ha
    · exact hne a ha

end Sys2Proof.Machine
end

section
/-! PROOFS. What an action of the sequencer can do (43_sequencer.md R211 to R226), said once: it rests, goes on to a point,
or fails. -/

namespace Sys2Proof.Machine

/-! ### What the accesses of an action leave alone -/

/-- What the register accesses and service calls of an action leave alone; none of them is a write of a command register. -/
structure Accesses (s u : State) : Prop where
  params : u.params = s.params
  xfer : u.xfer = s.xfer
  seq : u.seq = s.seq
  calls : u.calls = s.calls
  phase : u.irq.phase = s.irq.phase
  engine : u.engine = s.engine
  session : u.session = { s.session with lastStatus := u.session.lastStatus }
  trace : ∃ new, u.trace = new ++ s.trace ∧ ∀ v, .write .argr v ∉ new ∧ .write .cmdr v ∉ new

theorem Accesses.refl (s : State) : Accesses s s := ⟨rfl, rfl, rfl, rfl, rfl, rfl, rfl, [], by simp⟩

theorem Accesses.trans {s t u : State} (h : Accesses s t) (k : Accesses t u) : Accesses s u where
  params := k.params.trans h.params
  xfer := k.xfer.trans h.xfer
  seq := k.seq.trans h.seq
  calls := k.calls.trans h.calls
  phase := k.phase.trans h.phase
  engine := k.engine.trans h.engine
  session := by rw [k.session, h.session]
  trace := by
    obtain ⟨a, ha, hna⟩ := h.trace
    obtain ⟨b, hb, hnb⟩ := k.trace
    refine ⟨b ++ a, by rw [hb, ha, List.append_assoc], fun v => ?_⟩
    simp only [List.mem_append, not_or]
    exact ⟨⟨(hnb v).1, (hna v).1⟩, (hnb v).2, (hna v).2⟩

/-- One access or service call, where it is no write of a command register. -/
theorem Accesses.of_event {s u : State} (e : Event) (he : ∀ v, e ≠ .write .argr v ∧ e ≠ .write .cmdr v)
    (htrace : u.trace = e :: s.trace) (hparams : u.params = s.params) (hxfer : u.xfer = s.xfer) (hseq : u.seq = s.seq)
    (hcalls : u.calls = s.calls) (hphase : u.irq.phase = s.irq.phase) (hengine : u.engine = s.engine)
    (hsession : u.session = { s.session with lastStatus := u.session.lastStatus }) : Accesses s u :=
  ⟨hparams, hxfer, hseq, hcalls, hphase, hengine, hsession, [e], htrace, fun v => by
    simpa using ⟨(he v).1.symm, (he v).2.symm⟩⟩

theorem emit_accesses {e : Event} (he : ∀ v, e ≠ .write .argr v ∧ e ≠ .write .cmdr v) (s : State) :
    Accesses s (s.emit e) :=
  .of_event e he rfl rfl rfl rfl rfl rfl rfl rfl

theorem readNext_accesses (r : Reg) (s : State) : Accesses s (readNext r s) :=
  .of_event (.read r (readValue r s)) (by simp) (by simp) (by simp) (by simp) (by simp) (by simp)
    (by simp) (by simp) (by simp)

theorem pollNext_accesses (s : State) : Accesses s (pollNext s) :=
  .of_event (.read .star (readValue .star s)) (by simp) (by simp) (by simp) (by simp) (by simp) (by simp)
    (by simp) (by simp) (by simp)

theorem writeReg_accesses {r : Reg} (v : Word) (s : State) (hargr : r ≠ .argr) (hcmdr : r ≠ .cmdr) :
    Accesses s (writeReg r v s) :=
  .of_event (.write r v) (by simp [hargr, hcmdr]) (by simp) (by simp) (by simp) (by simp) (by simp)
    (by simp) (by simp) (by simp)

theorem setLoop_accesses (v : LoopCount) (s : State) : Accesses s (s.setLoop v) :=
  ⟨rfl, rfl, rfl, rfl, rfl, rfl, rfl, [], by simp⟩

theorem leaveLoop_accesses (flags : Word) (s : State) : Accesses s (leaveLoop flags s) :=
  (writeReg_accesses flags s (by decide) (by decide)).trans (setLoop_accesses _ _)

theorem rmw_accesses {r : Reg} (hp : r.port = none) (mask v : Word) (s : State) (hargr : r ≠ .argr) (hcmdr : r ≠ .cmdr) :
    Accesses s (rmw r mask v s) where
  params := by simp
  xfer := by simp
  seq := by simp
  calls := by simp
  phase := by simp
  engine := by simp
  session := by simp
  trace := ⟨[_, _], rmw_trace hp mask v s, by simp [hargr.symm, hcmdr.symm]⟩

theorem configurePins_accesses (s : State) : Accesses s (configurePins s) := by
  have pins : ∀ (l : List PinLine) (u : State), Accesses u (l.foldl (fun t l => t.emit (.pin l t.params.pinAf)) u) := by
    intro l
    induction l with
    | nil => exact Accesses.refl
    | cons line l ih => exact fun u => (emit_accesses (by simp) u).trans (ih _)
  exact pins _ s

/-- Reading a pair of FIFO words and noting the count. -/
theorem pullPair_accesses (ws : List Word) (s : State) : Accesses s (countWords ws (pullPair s).2) :=
  ((readNext_accesses .fifor s).trans (readNext_accesses .fifor _)).trans (setLoop_accesses _ _)

theorem drain_accesses (e m : Nat) (s : State) : Accesses s (drain e m s).2.2 := by
  refine Accesses.trans ?_ (leaveLoop_accesses _ _)
  exact drainLoop_induct (fun u h => h.trans (pollNext_accesses u)) (fun ws u h => h.trans (pullPair_accesses ws u)) e m [] _
    (setLoop_accesses _ s)

theorem setLoop_kept (l : List Reg) (v : LoopCount) (s : State) : Kept l s (s.setLoop v) :=
  ⟨rfl, rfl, rfl, rfl, rfl, rfl, rfl, rfl, rfl, fun _ _ => rfl⟩

/-- A drain keeps every register but STAR, ICR and FIFOR (41_datapath.md R161, R162). -/
theorem drain_kept (e m : Nat) (s : State) : Kept [.star, .icr, .fifor] s (drain e m s).2.2 := by
  have hpoll (u : State) : Kept [.star, .icr, .fifor] u (pollNext u) := (pollNext_kept u).mono (by simp)
  have hpair (ws : List Word) (u : State) : Kept [.star, .icr, .fifor] u (countWords ws (pullPair u).2) :=
    (((readNext_kept .fifor u).trans (readNext_kept .fifor _)).mono (by simp)).trans (setLoop_kept _ _ _)
  refine Kept.trans ?_ ((leaveLoop_kept _ _).mono (by simp))
  exact drainLoop_induct (fun u h => h.trans (hpoll u)) (fun ws u h => h.trans (hpair ws u)) e m [] _ (setLoop_kept _ _ s)

@[simp] theorem drain_loop (e m : Nat) (s : State) : (drain e m s).2.2.loop = LoopCount.idle := leaveLoop_loop _ _

/-! ### Where an action goes -/

/-- An issuing point and the point that takes the outcome of its word (43_sequencer.md R212 to R224). -/
inductive Issues : SeqPoint → SeqPoint → Prop
  | idle : Issues .idleIssue .idleReply
  | probe (n : Nat) : Issues (.probeIssue n) (.probeReply n)
  | voltPrefix (n : Nat) : Issues (.voltPrefix n) (.voltPrefixReply n)
  | voltCond (n : Nat) : Issues (.voltCond n) (.voltCondReply n)
  | ident : Issues .identIssue .identReply
  | addr : Issues .addrIssue .addrReply
  | csd : Issues .csdIssue .csdReply
  | select : Issues .selectIssue .selectReply
  | configLen : Issues .configLen .configLenReply
  | configPrefix : Issues .configPrefix .configPrefixReply
  | configScr : Issues .configScr .configScrReply
  | widthPrefix : Issues .widthPrefix .widthPrefixReply
  | widthSet : Issues .widthSet .widthSetReply
  | ready (n : Nat) : Issues (.readyIssue n) (.readyReply n)

/-- A point whose successful word needs no more than its outcome, and the point that follows. -/
inductive Follows : SeqPoint → SeqPoint → Prop
  | idle : Follows .idleReply (.probeIssue 0)
  | voltPrefix (n : Nat) : Follows (.voltPrefixReply n) (.voltCond n)
  | ident : Follows .identReply .addrIssue
  | addr : Follows .addrReply .csdIssue
  | csd : Follows .csdReply .selectIssue
  | select : Follows .selectReply .configLen
  | configLen : Follows .configLenReply .configPrefix
  | configPrefix : Follows .configPrefixReply .configPrime
  | configScr : Follows .configScrReply .configDrain
  | widthPrefix : Follows .widthPrefixReply .widthSet
  | widthSet : Follows .widthSetReply .speed

/-- `Goes s q p x w`: from `s`, at the point `q`, the sequencer may go on to the point `p`, with the session `x` but for
`last_status` and `w` in the slot. -/
inductive Goes (s : State) : SeqPoint → SeqPoint → Session → Option CmdWord → Prop
  | issues {q p : SeqPoint} {i : Instr} (h : Issues q p) (hi : p.awaited s.session.rca = some i)
      (hwide : q = .widthPrefix → ∃ d, s.session.scr = some d ∧ wide4 d = true) :
      Goes s q p s.session (some (encode s.params.layout i))
  | follows {q p : SeqPoint} (h : Follows q p) (hout : s.engine.reply.out = .success) : Goes s q p s.session s.engine.slot
  | poweredUp : Goes s .powerUp .idleIssue s.session s.engine.slot
  | probed (n : Nat) : Goes s (.probeReply n) (.voltPrefix 0) { s.session with version2 := some true } s.engine.slot
  | probesAgain {n : Nat} (hn : n + 1 < 10) : Goes s (.probeReply n) (.probeIssue (n + 1)) s.session s.engine.slot
  | negotiated (n : Nat) (hout : s.engine.reply.out = .success) :
      Goes s (.voltCondReply n) .capacity s.session s.engine.slot
  | negotiatesAgain {n : Nat} (hn : n + 1 < s.params.voltBudget) :
      Goes s (.voltCondReply n) (.voltPrefix (n + 1)) s.session s.engine.slot
  | capable {o : Word} (ho : s.session.ocr = some o) (hccs : ocrCcs o = false) :
      Goes s .capacity .identIssue s.session s.engine.slot
  | primed : Goes s .configPrime .configScr s.session s.engine.slot
  | drained (w0 w1 : Word) : Goes s .configDrain .widthPrefix
      { s.session with scrRaw := some ⟨w0, w1⟩, scr := some (scrCorrect w0 w1) } s.engine.slot
  | sped : Goes s .speed (.readyIssue 0) s.session s.engine.slot
  | queriesAgain {n : Nat} (hn : n + 1 < s.params.readyBudget) :
      Goes s (.readyReply n) (.readyIssue (n + 1)) s.session s.engine.slot
  | ready (n : Nat) (hout : s.engine.reply.out = .success)
      (hstate : cardState s.engine.reply.resp.w0 = transferState) :
      Goes s (.readyReply n) .ready { s.session with result := some .ready } s.engine.slot

/-- Accesses whose one change of the session is undone. -/
theorem Accesses.setSession {s u : State} (h : Accesses s u) : Accesses s (u.setSession s.session) :=
  { h with session := rfl }

/-- The state `t` is `s` moved to the point `p`, with the session `x` but for `last_status` and `w` in the slot. -/
structure Moved (p : SeqPoint) (x : Session) (w : Option CmdWord) (s t : State) : Prop where
  params : t.params = s.params
  xfer : t.xfer = s.xfer
  seq : t.seq = { s.seq with pc := p }
  calls : t.calls = s.calls
  phase : t.irq.phase = s.irq.phase
  engine : t.engine = { s.engine with slot := w }
  session : t.session = { x with lastStatus := t.session.lastStatus }
  loop : s.loop = LoopCount.idle → t.loop = LoopCount.idle

theorem Moved.pc {p : SeqPoint} {x : Session} {w : Option CmdWord} {s t : State} (h : Moved p x w s t) : t.seq.pc = p := by
  rw [h.seq]

/-- Accesses, then the move to the point. -/
theorem Accesses.moved {s u : State} (h : Accesses s u) (hloop : s.loop = LoopCount.idle → u.loop = LoopCount.idle)
    (p : SeqPoint) : Moved p s.session s.engine.slot s (u.setPc p) :=
  ⟨h.params, h.xfer, by rw [State.setPc_seq, h.seq], h.calls, h.phase, h.engine, h.session, hloop⟩

/-- What an action does before it fails: accesses that change no register but those ENV answers and ICR, and at most a
change of the version flag. -/
structure FailsAfter (s u : State) : Prop where
  accesses : Accesses s (u.setSession s.session)
  diagStatus : u.session.diagStatus = s.session.diagStatus
  loop : s.loop = LoopCount.idle → u.loop = LoopCount.idle
  regs : ∀ r : Reg, r.port = none → r ≠ .icr → u.regs.get r = s.regs.get r

theorem FailsAfter.refl (s : State) : FailsAfter s s := ⟨.refl s, rfl, id, fun _ _ _ => rfl⟩

/-- What an action of the sequencer does. -/
inductive Action (s t : State) : Prop
  | rests (hpc : s.seq.pc.running = false) (h : t = point s)
  | goes {p : SeqPoint} {x : Session} {w : Option CmdWord} (h : Goes s s.seq.pc p x w) (hm : Moved p x w s t)
  | fails {e : ErrKind} {u : State} (hedge : s.seq.pc.state.mayMove (.failed e) = true) (hu : FailsAfter s u)
      (h : t = fail e u)

/-- No action takes a call of HOST. -/
theorem Action.calls_eq {s t : State} (h : Action s t) : t.calls = s.calls := by
  cases h with
  | rests _ h => rw [h, point_calls]
  | goes _ hm => exact hm.calls
  | fails _ hu h => exact h ▸ hu.accesses.calls

/-! ### What each action does -/

theorem Action.goesFrom {s t : State} {q p : SeqPoint} {x : Session} {w : Option CmdWord} (hpc : s.seq.pc = q)
    (h : Goes s q p x w) (hm : Moved p x w s t) : Action s t :=
  .goes (hpc ▸ h) hm

theorem Action.go {s : State} {q p : SeqPoint} (hpc : s.seq.pc = q) (h : Goes s q p s.session s.engine.slot) :
    Action s (s.setPc p) :=
  .goesFrom hpc h ((Accesses.refl s).moved id p)

theorem Action.fail {s : State} {q : SeqPoint} {e : ErrKind} (hpc : s.seq.pc = q)
    (hedge : q.state.mayMove (.failed e) = true) : Action s (fail e s) :=
  .fails (hpc ▸ hedge) (.refl s) rfl

theorem putWord_action {s t : State} {q p : SeqPoint} {i : Instr} (hpc : s.seq.pc = q) (h : putWord i p s = .next t)
    (hissues : Issues q p) (hi : p.awaited s.session.rca = some i)
    (hwide : q = .widthPrefix → ∃ d, s.session.scr = some d ∧ wide4 d = true) : Action s t := by
  cases h
  exact .goesFrom hpc (.issues hissues hi hwide) ⟨rfl, rfl, rfl, rfl, rfl, rfl, rfl, id⟩

theorem putWithRca_action {s t : State} {q p : SeqPoint} {mk : Word → Instr} (hpc : s.seq.pc = q)
    (h : putWithRca mk p s = .next t) (hissues : Issues q p) (hmk : p.awaited s.session.rca = s.session.rca.map mk)
    (hwide : q = .widthPrefix → ∃ d, s.session.scr = some d ∧ wide4 d = true) : Action s t := by
  obtain ⟨rca, hrca, hput⟩ := withSession_eq_next h
  exact putWord_action hpc hput hissues (by rw [hmk, hrca, Option.map_some]) hwide

/-- After a command an action goes on, or it fails with Timeout or CrcFailure. -/
theorem afterReply_action {s t : State} {q : SeqPoint} {k : StepResult} (hpc : s.seq.pc = q)
    (h : afterReply s k = .next t) (htimeout : q.state.mayMove (.failed .timeout) = true)
    (hcrc : q.state.mayMove (.failed .crcFailure) = true)
    (hk : s.engine.reply.out = .success → k = .next t → Action s t) : Action s t := by
  unfold afterReply at h
  cases hout : s.engine.reply.out <;> simp only [hout, toErr] at h
  case success => exact hk hout h
  case crcFailure => cases h; exact .fail hpc hcrc
  case hwTimeout | budgetExhausted => cases h; exact .fail hpc htimeout

theorem follows_action {s t : State} {q p : SeqPoint} (hpc : s.seq.pc = q) (h : afterReply s (.next (s.setPc p)) = .next t)
    (htimeout : q.state.mayMove (.failed .timeout) = true) (hcrc : q.state.mayMove (.failed .crcFailure) = true)
    (hfollows : Follows q p) : Action s t :=
  afterReply_action hpc h htimeout hcrc fun hout hk => by
    cases hk
    exact .go hpc (.follows hfollows hout)

theorem stepPowerUp_action {s t : State} (hpc : s.seq.pc = .powerUp) (h : stepPowerUp s = .next t) : Action s t := by
  simp only [stepPowerUp, Host.Outcome.next.injEq] at h
  subst h
  have hpins := configurePins_accesses s
  have hclkcr := hpins.trans (rmw_accesses (r := .clkcr) rfl (clkcrFields s.params.layout)
    (clkcrValue s.params busOne s.seq.initDiv) _ (by decide) (by decide))
  have hpower := hclkcr.trans (rmw_accesses (r := .power) rfl (pwrCtrl s.params.layout) (pwrCtrl s.params.layout) _
    (by decide) (by decide))
  have hdelay := hpower.trans (emit_accesses (e := .delay (settleUs s.params.pclk s.seq.initDiv.toNat)) (by simp) _)
  exact .goesFrom hpc .poweredUp (hdelay.moved (by simp [configurePins]) _)

theorem stepIdleReply_action {s t : State} (hpc : s.seq.pc = .idleReply) (h : stepIdleReply s = .next t) : Action s t := by
  unfold stepIdleReply at h
  split at h <;> cases h
  next hout => exact .go hpc (.follows .idle hout)
  next => exact .fail hpc rfl

theorem stepProbeReply_action {s t : State} {n : Nat} (hpc : s.seq.pc = .probeReply n)
    (h : stepProbeReply n s = .next t) : Action s t := by
  have hflag : FailsAfter s (s.setSession { s.session with version2 := some false }) :=
    ⟨.refl s, rfl, id, fun _ _ _ => rfl⟩
  unfold stepProbeReply at h
  split at h
  · cases h
    exact .goesFrom hpc (.probed n) ⟨rfl, rfl, rfl, rfl, rfl, rfl, rfl, id⟩
  · cases h
    exact .fails (by rw [hpc]; rfl) hflag rfl
  · cases h
    exact .fails (by rw [hpc]; rfl) hflag rfl
  · split at h <;> cases h
    next hn => exact .go hpc (.probesAgain hn)
    next => exact .fail hpc rfl

theorem stepVoltPrefixReply_action {s t : State} {n : Nat} (hpc : s.seq.pc = .voltPrefixReply n)
    (h : stepVoltPrefixReply n s = .next t) : Action s t := by
  refine afterReply_action hpc h rfl rfl fun hout hk => ?_
  have hread := readNext_accesses .respcmdr s
  dsimp only at hk
  split at hk <;> cases hk
  · exact .goesFrom hpc (.follows (.voltPrefix n) hout) (hread.moved (by simp) _)
  · exact .fails (by rw [hpc]; rfl) ⟨hread.setSession, by simp, by simp, fun r hp _ => by
      rw [readNext_get _ _ _ (star_ne_of_port hp), if_neg (by rintro ⟨rfl, -⟩; cases hp)]⟩ rfl

theorem stepVoltCondReply_action {s t : State} {n : Nat} (hpc : s.seq.pc = .voltCondReply n)
    (h : stepVoltCondReply n s = .next t) : Action s t := by
  refine afterReply_action hpc h rfl rfl fun hout hk => ?_
  split at hk
  · cases hk
    exact .go hpc (.negotiated n hout)
  · split at hk <;> cases hk
    next hn => exact .go hpc (.negotiatesAgain hn)
    next => exact .fail hpc rfl

theorem stepCapacity_action {s t : State} (hpc : s.seq.pc = .capacity) (h : stepCapacity s = .next t) : Action s t := by
  obtain ⟨o, ho, hk⟩ := withSession_eq_next h
  split at hk <;> cases hk
  next => exact .fail hpc rfl
  next hccs => exact .go hpc (.capable ho (by simpa using hccs))

/-- A short read that is admitted is three writes of the data path's registers. -/
theorem beginShortRead_accesses {n : Nat} {s t : State} (h : beginShortRead n s = .next t) :
    Accesses s t ∧ t.loop = s.loop := by
  unfold beginShortRead at h
  split at h
  · cases h
  · split at h <;> cases h
    refine ⟨?_, by simp⟩
    have hdtimer := writeReg_accesses (r := .dtimer) s.params.dtimer s (by decide) (by decide)
    have hdlenr := hdtimer.trans (writeReg_accesses (r := .dlenr) (BitVec.ofNat 32 n) _ (by decide) (by decide))
    exact hdlenr.trans (writeReg_accesses _ _ (by decide) (by decide))

theorem stepConfigPrime_action {s t : State} (hpc : s.seq.pc = .configPrime) (h : stepConfigPrime s = .next t) :
    Action s t := by
  obtain ⟨u, hu, rfl⟩ := onNext_eq_next h
  obtain ⟨hacc, hloop⟩ := beginShortRead_accesses hu
  exact .goesFrom hpc .primed (hacc.moved (by simp [hloop]) _)

theorem DrainOutcome.err_mayMove {d : DrainOutcome} {e : ErrKind} (h : d.err = some e) :
    SeqState.configurationRetrieval.mayMove (.failed e) = true := by
  cases d <;> cases h <;> rfl

theorem stepConfigDrain_action {s t : State} (hpc : s.seq.pc = .configDrain) (h : stepConfigDrain s = .next t) :
    Action s t := by
  have hacc := drain_accesses scrWords s.params.drainBudget s
  have hkept := drain_kept scrWords s.params.drainBudget s
  have hloop := drain_loop scrWords s.params.drainBudget s
  simp only [stepConfigDrain] at h
  generalize drain scrWords s.params.drainBudget s = r at hacc hkept hloop h
  have hu : FailsAfter s r.2.2 :=
    ⟨hacc.setSession, by rw [hacc.session], fun _ => hloop, fun r hp hicr => hkept.regs r (by
      simp only [List.mem_cons, List.not_mem_nil, or_false, not_or]
      exact ⟨star_ne_of_port hp, hicr, by rintro rfl; cases hp⟩)⟩
  split at h
  · cases h
  · split at h <;> cases h
    next w0 w1 _ _ _ =>
      exact .goesFrom hpc (.drained w0 w1) ⟨hacc.params, hacc.xfer, by simp [storeScr, hacc.seq], hacc.calls,
        hacc.phase, hacc.engine, by simp only [storeScr, State.setPc_session, State.setSession_session]; rw [hacc.session],
        fun _ => hloop⟩
    next => exact .fails (by rw [hpc]; rfl) hu rfl
    next e _ herr => exact .fails (by rw [hpc]; exact DrainOutcome.err_mayMove herr) hu rfl

theorem stepWidthPrefix_action {s t : State} (hpc : s.seq.pc = .widthPrefix) (h : stepWidthPrefix s = .next t) :
    Action s t := by
  obtain ⟨d, hd, hk⟩ := withSession_eq_next h
  split at hk
  next hwide => exact putWithRca_action hpc hk .widthPrefix rfl fun _ => ⟨d, hd, hwide⟩
  next =>
    cases hk
    exact .fail hpc rfl

theorem stepSpeed_action {s t : State} (hpc : s.seq.pc = .speed) (h : stepSpeed s = .next t) : Action s t := by
  cases h
  exact .goesFrom hpc .sped ((rmw_accesses rfl _ _ s (by decide) (by decide)).moved (by simp) _)

theorem stepReadyReply_action {s t : State} {n : Nat} (hpc : s.seq.pc = .readyReply n)
    (h : stepReadyReply n s = .next t) : Action s t := by
  refine afterReply_action hpc h rfl rfl fun hout hk => ?_
  split at hk
  next hstate =>
    cases hk
    exact .goesFrom hpc (.ready n hout hstate) ⟨rfl, rfl, rfl, rfl, rfl, rfl, rfl, id⟩
  next =>
    split at hk <;> cases hk
    next hn => exact .go hpc (.queriesAgain hn)
    next => exact .fail hpc rfl

/-- What the sequencer's action does at any point. -/
theorem seqStep_action {s t : State} (h : seqStep s = .next t) : Action s t := by
  unfold seqStep at h
  cases hpc : s.seq.pc <;> simp only [hpc] at h
  case off | ready | failed =>
    cases h
    exact .rests (by rw [hpc]; rfl) rfl
  case powerUp => exact stepPowerUp_action hpc h
  case idleIssue => exact putWord_action hpc h .idle rfl nofun
  case probeIssue n => exact putWord_action hpc h (.probe n) rfl nofun
  case voltPrefix n => exact putWord_action hpc h (.voltPrefix n) rfl nofun
  case voltCond n => exact putWord_action hpc h (.voltCond n) rfl nofun
  case identIssue => exact putWord_action hpc h .ident rfl nofun
  case addrIssue => exact putWord_action hpc h .addr rfl nofun
  case csdIssue => exact putWithRca_action hpc h .csd rfl nofun
  case selectIssue => exact putWithRca_action hpc h .select rfl nofun
  case configLen => exact putWord_action hpc h .configLen rfl nofun
  case configPrefix => exact putWithRca_action hpc h .configPrefix rfl nofun
  case configScr => exact putWord_action hpc h .configScr rfl nofun
  case widthSet => exact putWord_action hpc h .widthSet rfl nofun
  case readyIssue n => exact putWithRca_action hpc h (.ready n) rfl nofun
  case identReply => exact follows_action hpc h rfl rfl .ident
  case addrReply => exact follows_action hpc h rfl rfl .addr
  case csdReply => exact follows_action hpc h rfl rfl .csd
  case selectReply => exact follows_action hpc h rfl rfl .select
  case configLenReply => exact follows_action hpc h rfl rfl .configLen
  case configPrefixReply => exact follows_action hpc h rfl rfl .configPrefix
  case configScrReply => exact follows_action hpc h rfl rfl .configScr
  case widthPrefixReply => exact follows_action hpc h rfl rfl .widthPrefix
  case widthSetReply => exact follows_action hpc h rfl rfl .widthSet
  case idleReply => exact stepIdleReply_action hpc h
  case probeReply => exact stepProbeReply_action hpc h
  case voltPrefixReply => exact stepVoltPrefixReply_action hpc h
  case voltCondReply => exact stepVoltCondReply_action hpc h
  case capacity => exact stepCapacity_action hpc h
  case configPrime => exact stepConfigPrime_action hpc h
  case configDrain => exact stepConfigDrain_action hpc h
  case widthPrefix => exact stepWidthPrefix_action hpc h
  case speed => exact stepSpeed_action hpc h
  case readyReply => exact stepReadyReply_action hpc h

end Sys2Proof.Machine
end

section
/-! PROOFS. What a step can do, by its kind, and what each kind does to the sequencer state: the transition table (O40), the
one way to Ready (O41), and what a failing step leaves (O39). -/

namespace Sys2Proof.Machine

/-! ### The kinds of step -/

/-- What makes a step: the handler's entry, a phase of the handler, the word in the slot, a poll of a running wait, an action
of the sequencer, or a call of HOST. -/
inductive StepKind (s t : State) : Prop
  | enters (hphase : s.irq.phase = .idle) (hflight : s.xfer.inFlight = true)
      (h : t = s.setIrq { s.irq with latched := false, phase := .dispatch })
  | handles (hphase : s.irq.phase ≠ .idle) (h : irqAction s = .next t)
  | runs {w : CmdWord} {i : Instr} (hphase : s.irq.phase = .idle) (hslot : s.engine.slot = some w)
      (hi : decode s.params.layout s.engine.appPending w = .instr i) (h : exec i (fetched i s) = .next t)
  | polls {left : Nat} (hphase : s.irq.phase = .idle) (hslot : s.engine.slot = none) (h : waitPoll left s = .next t)
  | acts (hphase : s.irq.phase = .idle) (hslot : s.engine.slot = none) (h : Action s t)
  | calls {op : HostOp} {rest : List HostCall} (hphase : s.irq.phase = .idle) (hslot : s.engine.slot = none)
      (h : doCall op (s.setCalls rest) = .next t)

theorem seqOwn_kind {s t : State} (hphase : s.irq.phase = .idle) (hslot : s.engine.slot = none)
    (h : seqOwn s = .next t) : StepKind s t := by
  unfold seqOwn at h
  split at h
  · exact .polls hphase hslot h
  · exact .acts hphase hslot (seqStep_action h)

theorem seqAction_kind {s t : State} (hphase : s.irq.phase = .idle) (h : seqAction s = .next t) : StepKind s t := by
  unfold seqAction at h
  split at h
  next w hslot =>
    unfold runWord at h
    split at h
    next i hi => exact .runs hphase hslot hi h
    next => cases h
  next hslot =>
    unfold seqOrCall at h
    split at h
    · exact seqOwn_kind hphase hslot h
    next c rest _ =>
      split at h
      · split at h
        · exact seqOwn_kind hphase hslot h
        · rcases otherContext_eq c.op (s.setCalls rest) with hr | hr
          · rw [hr] at h
            cases h
          · exact .calls hphase hslot (hr ▸ h)
      · exact .calls hphase hslot h

theorem step_kind {s t : State} (h : step s = .next t) : StepKind s t := by
  by_cases hphase : s.irq.phase = .idle
  · simp only [step, hphase] at h
    split at h
    · unfold irqEnter at h
      split at h <;> cases h
      next hflight => exact .enters hphase hflight rfl
    · exact seqAction_kind hphase (seqCommit_eq_next h)
  · exact .handles hphase (step_handler hphase ▸ h)

/-! ### What each kind does to SEQ's side of the state -/

theorem irqDispatch_frame (s : State) :
    (irqDispatch s).params = s.params ∧ (irqDispatch s).engine = s.engine ∧ (irqDispatch s).loop = s.loop
      ∧ (irqDispatch s).xfer.inFlight = s.xfer.inFlight ∧ (irqDispatch s).xfer.completed = s.xfer.completed
      ∧ (irqDispatch s).seq = s.seq ∧ (irqDispatch s).calls = s.calls := by
  simp only [irqDispatch]
  split
  · simp [errorPath, setPhase]
  · split
    · simp [dataEndPath, dataEndWrites, setPhase]
    · simp [irqReturn]

theorem irqCollect_frame (s : State) :
    (irqCollect s).params = s.params ∧ (irqCollect s).engine = s.engine ∧ (irqCollect s).loop = s.loop
      ∧ (irqCollect s).xfer.inFlight = s.xfer.inFlight ∧ (irqCollect s).xfer.completed = s.xfer.completed
      ∧ (irqCollect s).seq = s.seq ∧ (irqCollect s).calls = s.calls := by
  unfold irqCollect
  split <;> exact ⟨rfl, rfl, rfl, rfl, rfl, rfl, rfl⟩

/-- The handler leaves SEQ's side of the state and HOST's queue alone (60_exceptions.md R279). -/
theorem irqAction_seq_calls {s t : State} (h : irqAction s = .next t) : t.seq = s.seq ∧ t.calls = s.calls := by
  unfold irqAction at h
  split at h
  · cases h
    exact ⟨rfl, rfl⟩
  · cases h
    obtain ⟨-, -, -, -, -, hkept⟩ := irqDispatch_frame s
    exact hkept
  · unfold irqStop at h
    split at h
    · obtain ⟨u, hu, rfl⟩ := onNext_eq_next h
      have hframe := (exec_completes hu).frame
      exact ⟨hframe.seq, hframe.calls⟩
    · cases h
  · cases h
    obtain ⟨-, -, -, -, -, hkept⟩ := irqCollect_frame s
    exact hkept
  · cases h
    simp [irqRelease, irqReturn]

theorem waitPoll_pc_calls {left : Nat} {s t : State} (h : waitPoll left s = .next t) :
    t.seq.pc = s.seq.pc ∧ t.calls = s.calls := by
  simp only [waitPoll] at h
  split at h
  · cases h
    simp [recordSeen]
  · split at h <;> cases h <;> simp [recordSeen]

/-- A StartTransfer that gives a next state was admitted, and what it leaves (60_exceptions.md R276). -/
theorem startTransfer_eq_next {multi : Bool} {s t : State} (h : startTransfer multi s = .next t) :
    startAdmitted s = true ∧ t.xfer = ⟨false, false, multi, 0, true⟩
      ∧ t.seq = { s.seq with acquired := false, startMulti := multi }
      ∧ t.params = s.params ∧ t.engine = s.engine ∧ t.loop = s.loop ∧ t.irq.phase = s.irq.phase := by
  unfold startTransfer at h
  split at h
  next hadmitted =>
    obtain ⟨s1, h1, h⟩ := andThen_eq_next h
    obtain ⟨s2, h2, h⟩ := andThen_eq_next h
    obtain ⟨s3, h3, h⟩ := andThen_eq_next h
    obtain ⟨s4, h4, h⟩ := andThen_eq_next h
    refine ⟨hadmitted, ?_⟩
    simp [recordWrite_eq_next h, recordWrite_eq_next h4, recordWrite_eq_next h3, recordWrite_eq_next h2,
      recordWrite_eq_next h1]
  next => cases h

/-- A BringUp that gives a next state found SEQ free (60_exceptions.md R278). -/
theorem free_of_bringUp {rate : Nat} {s t : State} (h : bringUp rate s = .next t) :
    seqBusy s = false ∧ s.xfer.inFlight = false := by
  unfold bringUp at h
  split at h
  · cases h
  next hfree => simpa using hfree

theorem not_running_of_free {s : State} (h : seqBusy s = false) : s.seq.pc.running = false := by
  simp only [seqBusy, Bool.or_eq_false_iff] at h
  exact h.1.1

theorem memRead_eq_next {addr : Word} {width : Nat} {s t : State} (h : memRead addr width s = .next t) :
    ∃ r, t = readNext r s := by
  unfold memRead at h
  split at h <;> cases h
  exact ⟨_, rfl⟩

theorem memWrite_eq_next {addr : Word} {width : Nat} {v : Word} {s t : State} (h : memWrite addr width v s = .next t) :
    ∃ r, t = writeReg r v s := by
  unfold memWrite at h
  split at h <;> cases h
  exact ⟨_, rfl⟩

/-- A call keeps the program counter, or it is the BringUp of a sequencer that rests. -/
theorem doCall_pc {op : HostOp} {s t : State} (h : doCall op s = .next t) :
    t.seq.pc = s.seq.pc ∨ s.seq.pc.running = false ∧ t.seq.pc = .powerUp := by
  cases op with
  | bringUp rate => exact .inr ⟨not_running_of_free (free_of_bringUp h).1, (bringUp_begins h).1⟩
  | startTransfer multi =>
    obtain ⟨-, -, hseq, -⟩ := startTransfer_eq_next h
    exact .inl (by rw [hseq])
  | waitTransfer =>
    cases h
    exact .inl rfl
  | shortRead bytes => exact .inl (by rw [(beginShortRead_accesses h).1.seq])
  | memRead addr width =>
    obtain ⟨r, rfl⟩ := memRead_eq_next h
    exact .inl (by simp)
  | memWrite addr width v =>
    obtain ⟨r, rfl⟩ := memWrite_eq_next h
    exact .inl (by simp)
  | readRecord f =>
    cases h
    exact .inl (by simp)
  | routeIrq =>
    cases h
    exact .inl (by simp)

/-- A step keeps the program counter, begins a BringUp where the sequencer rests, or is an action of the sequencer. -/
theorem step_pc {s t : State} (h : step s = .next t) :
    t.seq.pc = s.seq.pc ∨ s.seq.pc.running = false ∧ t.seq.pc = .powerUp ∨ s.engine.slot = none ∧ Action s t := by
  cases step_kind h with
  | enters _ _ h => exact .inl (by rw [h]; rfl)
  | handles _ h => exact .inl (by rw [(irqAction_seq_calls h).1])
  | runs _ _ _ h => exact .inl (congrArg Seq.pc (exec_completes h).frame.seq)
  | polls _ _ h => exact .inl (waitPoll_pc_calls h).1
  | acts _ hslot h => exact .inr (.inr ⟨hslot, h⟩)
  | calls _ _ h =>
    rcases doCall_pc h with hpc | hpc
    · exact .inl hpc
    · exact .inr (.inl hpc)

/-! ### The transition table -/

/-- Where the sequencer goes on it stays in its state or follows an edge of the table (43_sequencer.md R230). -/
theorem Goes.edge {s : State} {q p : SeqPoint} {x : Session} {w : Option CmdWord} (h : Goes s q p x w) :
    p.state = q.state ∨ q.state.mayMove p.state = true := by
  cases h with
  | issues h => cases h <;> exact .inl rfl
  | follows h =>
    cases h with
    | voltPrefix | configLen | configPrefix | configScr | widthPrefix => exact .inl rfl
    | idle | ident | addr | csd | select | widthSet => exact .inr rfl
  | probesAgain | negotiatesAgain | primed | queriesAgain => exact .inl rfl
  | poweredUp | probed | negotiated | capable | drained | sped | ready => exact .inr rfl

/-- A BringUp may begin where none runs (70_reset_and_hazards.md R301). -/
theorem mayMove_powerUp {q : SeqPoint} (h : q.running = false) : q.state.mayMove .powerUp = true := by
  cases q with
  | off | ready | failed => rfl
  | _ => cases h

/-- Settles O40: the program counter moves only where a BringUp begins, which is an edge from Off, Ready and Failed, or in an
action of the sequencer, whose moves and failures are edges. -/
theorem transitionTable : Obligations.TransitionTable := by
  unfold Obligations.TransitionTable
  intro s t h
  rcases step_pc h with hpc | ⟨hrests, hpc⟩ | ⟨-, hact⟩
  · exact .inl (by rw [hpc])
  · exact .inr (hpc ▸ mayMove_powerUp hrests)
  · cases hact with
    | rests _ h => exact .inl (by rw [h, point_seq])
    | goes hgoes hm => exact hm.pc ▸ hgoes.edge
    | fails hedge _ h => exact .inr (by rw [h]; exact hedge)

/-! ### The way to Ready -/

/-- The sequencer goes on to Ready from a successful CMD13 reply whose card state is Transfer only (43_sequencer.md R225). -/
theorem Goes.to_ready {s : State} {q : SeqPoint} {x : Session} {w : Option CmdWord} (h : Goes s q .ready x w) :
    (∃ n, q = .readyReply n) ∧ s.engine.reply.out = .success
      ∧ cardState s.engine.reply.resp.w0 = transferState ∧ x.result = some .ready := by
  cases h with
  | issues h => cases h
  | follows h => cases h
  | ready n hout hstate => exact ⟨⟨n, rfl⟩, hout, hstate, rfl⟩

/-- Settles O41: a step to Ready is an action that goes on to it. -/
theorem readyOnlyFromTransferState : Obligations.ReadyOnlyFromTransferState := by
  unfold Obligations.ReadyOnlyFromTransferState
  refine ⟨fun s t h hready hnot => ?_, fun m s hnot => ?_⟩
  · rcases step_pc h with hpc | ⟨-, hpc⟩ | ⟨-, hact⟩
    · exact absurd (hpc ▸ hready) hnot
    · rw [hpc] at hready
      cases hready
    · cases hact with
      | rests _ h => exact absurd (by rw [← hready, h, point_seq]) hnot
      | goes hgoes hm =>
        obtain rfl := hm.pc.symm.trans hready
        obtain ⟨⟨n, hn⟩, hout, hstate, hresult⟩ := hgoes.to_ready
        exact ⟨n, hn, hout, hstate, by rw [hm.session]; exact hresult⟩
      | fails _ _ h =>
        rw [h] at hready
        cases hready
  · have hadmitted : startAdmitted s = false := by simp [startAdmitted, hnot]
    simp [startTransfer, hadmitted]

/-! ### What a failure leaves -/

theorem Goes.not_failed {s : State} {q : SeqPoint} {e : ErrKind} {x : Session} {w : Option CmdWord} :
    ¬ Goes s q (.failed e) x w := by
  intro h
  cases h with
  | issues h => cases h
  | follows h => cases h

/-- Settles O39: a step into Failed is an action that fails after accesses that put out no command. -/
theorem failureBookkeeping : Obligations.FailureBookkeeping := by
  unfold Obligations.FailureBookkeeping
  intro s t e h hfailed hnot
  rcases step_pc h with hpc | ⟨-, hpc⟩ | ⟨hslot, hact⟩
  · exact absurd (hpc ▸ hfailed) hnot
  · rw [hpc] at hfailed
    cases hfailed
  · cases hact with
    | rests _ h => exact absurd (by rw [← hfailed, h, point_seq]) hnot
    | goes hgoes hm =>
      obtain rfl := hm.pc.symm.trans hfailed
      exact absurd hgoes Goes.not_failed
    | fails _ hu h =>
      subst h
      cases hfailed
      refine ⟨rfl, fun w hw => ?_, fun hw => ?_, ?_, hu.accesses.trace, hu.regs⟩
      · simp only [fail, State.setPc_session, State.setSession_session] at hw ⊢
        rw [hw]
      · simp only [fail, State.setPc_session, State.setSession_session] at hw ⊢
        rw [hw]
        exact hu.diagStatus
      · rw [← hslot]
        exact congrArg Engine.slot hu.accesses.engine

end Sys2Proof.Machine
end

section
/-! PROOFS. Every step keeps the invariant of a safe run (O43): each part of it said of the point and the registers it speaks
of, and kept by each kind of step. -/

namespace Sys2Proof.Machine

/-! ### The parts of the invariant -/

theorem transferInv_iff {s : State} : transferInv s = true ↔
    (s.xfer.inFlight = true → s.xfer.completed = false) ∧ (s.irq.phase ≠ .idle → s.xfer.inFlight = true)
      ∧ (s.xfer.inFlight = true → s.seq.pc = .ready) ∧ (s.xfer.inFlight = true → s.seq.acquired = false)
      ∧ (s.seq.acquired = false → s.xfer.inFlight = true ∨ s.xfer.completed = true) := by
  simp only [transferInv, Bool.and_eq_true, Bool.or_eq_true, Bool.not_eq_true', beq_iff_eq, and_assoc]
  cases s.xfer.inFlight <;> cases s.seq.acquired <;> simp

/-- A transfer is in flight only where the card is ready. -/
theorem not_inFlight_of_ne_ready {s : State} (h : transferInv s = true) (hpc : s.seq.pc ≠ .ready) :
    s.xfer.inFlight = false := by
  obtain ⟨-, -, hready, -, -⟩ := transferInv_iff.mp h
  by_contra hne
  exact hpc (hready (by simpa using hne))

/-- With no transfer in flight the point has no part in the discipline of the record. -/
theorem transferInv_of_not_inFlight {s t : State} (h : transferInv s = true) (hflight : s.xfer.inFlight = false)
    (hxfer : t.xfer = s.xfer) (hphase : t.irq.phase = s.irq.phase) (hacquired : t.seq.acquired = s.seq.acquired) :
    transferInv t = true := by
  obtain ⟨hcompleted, hruns, -, -, hseen⟩ := transferInv_iff.mp h
  rw [transferInv_iff, hxfer, hphase, hacquired]
  exact ⟨hcompleted, hruns, by simp [hflight], by simp [hflight], hseen⟩

/-- What `app_pending` is at a point of a BringUp, by whether its word waits (30_encoding.md R109). -/
def SeqPoint.prefixBit (p : SeqPoint) (waiting : Bool) : Bool :=
  match p with
  | .voltPrefixReply _ | .configPrefixReply | .widthPrefixReply => !waiting
  | .voltCondReply _ | .configScrReply | .widthSetReply => waiting
  | p => p.wantsPrefix

theorem prefixBit_of_awaited {p : SeqPoint} {rca : Option Word} {i : Instr} (h : p.awaited rca = some i) (waiting : Bool) :
    p.prefixBit waiting = if waiting then i.row.app else i.isPrefix := by
  cases p with
  | csdReply | selectReply | configPrefixReply | widthPrefixReply | readyReply =>
    obtain ⟨a, -, rfl⟩ := Option.map_eq_some_iff.mp h
    cases waiting <;> rfl
  | idleReply | probeReply | voltPrefixReply | voltCondReply | identReply | addrReply | configLenReply | configScrReply
  | widthSetReply =>
    cases h
    cases waiting <;> rfl
  | _ => cases h

theorem prefixBit_of_not_awaited {p : SeqPoint} {rca : Option Word} (h : p.awaited rca = none)
    (hrca : 8 ≤ p.state.rank → rca.isSome = true) (waiting : Bool) : p.prefixBit waiting = p.wantsPrefix := by
  cases p with
  | csdReply | selectReply | configPrefixReply | widthPrefixReply | readyReply =>
    obtain ⟨a, rfl⟩ := Option.isSome_iff_exists.mp (hrca (by simp [SeqPoint.state, SeqState.rank]))
    cases h
  | idleReply | probeReply | voltPrefixReply | voltCondReply | identReply | addrReply | configLenReply | configScrReply
  | widthSetReply => cases h
  | _ => rfl

/-- Where the RCA that the states read is written, `app_pending` is a function of the point. -/
theorem prefixOk_iff {s : State} (hrca : 8 ≤ s.seq.pc.state.rank → s.session.rca.isSome = true) :
    prefixOk s = true ↔
      (s.seq.pc.running = true → s.engine.appPending = s.seq.pc.prefixBit s.engine.slot.isSome) := by
  unfold prefixOk
  split
  next hrun =>
    split
    next i hi => rw [prefixBit_of_awaited hi, beq_iff_eq]; simp [hrun]
    next hi => rw [prefixBit_of_not_awaited hi hrca, beq_iff_eq]; simp [hrun]
  next hrun => simp [hrun]

/-- What the invariant says of the session registers `x` at a point, by whether its word waits and the last outcome. -/
structure SessionAt (p : SeqPoint) (waiting : Bool) (out : EngOutcome) (x : Session) : Prop where
  version : 4 ≤ p.state.rank → x.version2 = some true
  ocr : 5 ≤ p.state.rank → x.ocr.isSome = true
  ocrTaken : ∀ n, p = .voltCondReply n → waiting = false → out = .success → x.ocr.isSome = true
  capacity : 6 ≤ p.state.rank → ∃ o, x.ocr = some o ∧ ocrCcs o = false
  rca : 8 ≤ p.state.rank → x.rca.isSome = true
  rcaTaken : p = .addrReply → waiting = false → out = .success → x.rca.isSome = true
  noRca : p.running = true ∧ p.state.rank < 7 ∨ p = .addrIssue ∨ p = .addrReply ∧ waiting = true → x.rca = none
  scr : 11 ≤ p.state.rank → x.scr.isSome = true
  wide : 11 ≤ p.state.rank → p ≠ .widthPrefix → ∃ d, x.scr = some d ∧ wide4 d = true

theorem sessionAt_iff {p : SeqPoint} {waiting : Bool} {out : EngOutcome} {x : Session} :
    SessionAt p waiting out x ↔
      (4 ≤ p.state.rank → x.version2 = some true) ∧ (5 ≤ p.state.rank → x.ocr.isSome = true)
        ∧ (∀ n, p = .voltCondReply n → waiting = false → out = .success → x.ocr.isSome = true)
        ∧ (6 ≤ p.state.rank → ∃ o, x.ocr = some o ∧ ocrCcs o = false) ∧ (8 ≤ p.state.rank → x.rca.isSome = true)
        ∧ (p = .addrReply → waiting = false → out = .success → x.rca.isSome = true)
        ∧ (p.running = true ∧ p.state.rank < 7 ∨ p = .addrIssue ∨ p = .addrReply ∧ waiting = true → x.rca = none)
        ∧ (11 ≤ p.state.rank → x.scr.isSome = true)
        ∧ (11 ≤ p.state.rank → p ≠ .widthPrefix → ∃ d, x.scr = some d ∧ wide4 d = true) :=
  ⟨fun ⟨h1, h2, h3, h4, h5, h6, h7, h8, h9⟩ => ⟨h1, h2, h3, h4, h5, h6, h7, h8, h9⟩,
   fun ⟨h1, h2, h3, h4, h5, h6, h7, h8, h9⟩ => ⟨h1, h2, h3, h4, h5, h6, h7, h8, h9⟩⟩

theorem sessionOk_iff {s : State} :
    sessionOk s = true ↔ SessionAt s.seq.pc s.engine.slot.isSome s.engine.reply.out s.session := by
  have hbelow (n m : Nat) (P : Prop) : (n < m ∨ P) ↔ (m ≤ n → P) := by rw [← not_lt, imp_iff_not_or, not_not]
  have hdone : (s.engine.slot.isNone && s.engine.reply.out == .success) = true ↔
      s.engine.slot.isSome = false ∧ s.engine.reply.out = .success := by simp
  have hnot (b : Bool) (P : Prop) : ((!b) = true ∨ P) ↔ (b = true → P) := by cases b <;> simp
  simp only [sessionOk, Bool.and_eq_true, Bool.or_eq_true, decide_eq_true_eq, and_assoc, or_assoc]
  simp only [hbelow, hnot, hdone, Bool.or_eq_true, Bool.and_eq_true, decide_eq_true_eq, ne_eq, ← imp_iff_not_or, and_imp,
    beq_iff_eq, Option.isNone_iff_eq_none, or_assoc]
  constructor
  · rintro ⟨hversion, hocr, htaken, hcapacity, hrca, hrcaTaken, hnoRca, hscr, hwide⟩
    refine ⟨hversion, hocr, fun n hn hw ho => ?_, fun hr => ?_, hrca, hrcaTaken, hnoRca, hscr, fun hr hp => ?_⟩
    · simpa [hn, hnot, hdone, hw, ho] using htaken
    · have hccs := hcapacity hr
      split at hccs
      next o ho => exact ⟨o, ho, by simpa using hccs⟩
      next => cases hccs
    · have hd := (hwide hr).resolve_left hp
      split at hd
      next d hx => exact ⟨d, hx, hd⟩
      next => cases hd
  · rintro ⟨hversion, hocr, htaken, hcapacity, hrca, hrcaTaken, hnoRca, hscr, hwide⟩
    refine ⟨hversion, hocr, ?_, fun hr => ?_, hrca, hrcaTaken, hnoRca, hscr,
      fun hr => or_iff_not_imp_left.mpr fun hp => ?_⟩
    · split
      next n hn =>
        rw [Bool.or_eq_true, hnot, hdone, and_imp]
        exact htaken n hn
      next => rfl
    · obtain ⟨o, ho, hccs⟩ := hcapacity hr
      simp [ho, hccs]
    · obtain ⟨d, hd, hwide4⟩ := hwide hr hp
      simp [hd, hwide4]

/-! ### Steps that keep the point -/

/-- Off a running BringUp neither the slot nor the last outcome has a part in it. -/
theorem SessionAt.of_not_running {p : SeqPoint} {waiting : Bool} {out : EngOutcome} {x : Session}
    (h : SessionAt p waiting out x) (hp : p.running = false) (waiting' : Bool) (out' : EngOutcome) :
    SessionAt p waiting' out' x where
  version := h.version
  ocr := h.ocr
  ocrTaken := by rintro n rfl; cases hp
  capacity := h.capacity
  rca := h.rca
  rcaTaken := by rintro rfl; cases hp
  noRca := by
    rintro (⟨hrun, -⟩ | rfl | ⟨rfl, -⟩)
    · rw [hp] at hrun
      cases hrun
    · cases hp
    · cases hp
  scr := h.scr
  wide := h.wide

/-- It speaks of the version flag, the OCR, the RCA and the SCR only. -/
theorem SessionAt.congr {p : SeqPoint} {waiting : Bool} {out : EngOutcome} {x y : Session} (h : SessionAt p waiting out x)
    (hversion : y.version2 = x.version2) (hocr : y.ocr = x.ocr) (hrca : y.rca = x.rca) (hscr : y.scr = x.scr) :
    SessionAt p waiting out y where
  version := hversion ▸ h.version
  ocr := hocr ▸ h.ocr
  ocrTaken := hocr ▸ h.ocrTaken
  capacity := hocr ▸ h.capacity
  rca := hrca ▸ h.rca
  rcaTaken := hrca ▸ h.rcaTaken
  noRca := hrca ▸ h.noRca
  scr := hscr ▸ h.scr
  wide := hscr ▸ h.wide

/-- A change that keeps the point, the waiting word and the session but for `last_status` keeps the invariant, if it keeps
the discipline of the transfer record and, in a BringUp, `app_pending` and the last outcome. -/
theorem safeInv_of_kept {s t : State} (h : safeInv s = true) (hparams : t.params = s.params) (hpc : t.seq.pc = s.seq.pc)
    (hslot : t.engine.slot = s.engine.slot) (hsession : t.session = { s.session with lastStatus := t.session.lastStatus })
    (hloop : t.loop = LoopCount.idle)
    (hengine : s.seq.pc.running = true →
      t.engine.appPending = s.engine.appPending ∧ t.engine.reply.out = s.engine.reply.out)
    (htransfer : transferInv t = true) : safeInv t = true := by
  obtain ⟨hstd, -, hslotOk, hprefix, hsess, hresult, hcounters, -⟩ := safeInv_iff.mp h
  have hat := sessionOk_iff.mp hsess
  have hrca : t.session.rca = s.session.rca := by rw [hsession]
  rw [prefixOk_iff hat.rca] at hprefix
  refine safeInv_iff.mpr ⟨by rwa [standard, hparams], htransfer, ?_, ?_, ?_, ?_, ?_, hloop⟩
  · rwa [slotOk, hslot, hpc, hrca, hparams]
  · rw [prefixOk_iff (by rw [hpc, hrca]; exact hat.rca), hpc, hslot]
    exact fun hrun => (hengine hrun).1.trans (hprefix hrun)
  · have hx : SessionAt s.seq.pc s.engine.slot.isSome s.engine.reply.out t.session :=
      hat.congr (by rw [hsession]) (by rw [hsession]) hrca (by rw [hsession])
    rw [sessionOk_iff, hpc, hslot]
    by_cases hrun : s.seq.pc.running = true
    · rw [(hengine hrun).2]
      exact hx
    · exact hx.of_not_running (by simpa using hrun) _ _
  · rw [resultOk, hpc, hsession]
    exact hresult
  · rwa [countersOk, hpc, hparams]

/-- What the discipline of the record speaks of. -/
theorem transferInv_congr {s t : State} (h : transferInv s = true) (hxfer : t.xfer = s.xfer)
    (hphase : t.irq.phase = s.irq.phase) (hpc : t.seq.pc = s.seq.pc) (hacquired : t.seq.acquired = s.seq.acquired) :
    transferInv t = true := by
  rwa [transferInv, hxfer, hphase, hpc, hacquired]

/-- A change elsewhere. -/
theorem safeInv_of_same {s t : State} (h : safeInv s = true) (hparams : t.params = s.params) (hxfer : t.xfer = s.xfer)
    (hseq : t.seq = s.seq) (hphase : t.irq.phase = s.irq.phase) (hengine : t.engine = s.engine)
    (hsession : t.session = s.session) (hloop : t.loop = s.loop) : safeInv t = true := by
  obtain ⟨-, htransfer, -, -, -, -, -, hidle⟩ := safeInv_iff.mp h
  exact safeInv_of_kept h hparams (by rw [hseq]) (by rw [hengine]) (by rw [hsession]) (hloop.trans hidle)
    (fun _ => by rw [hengine]; exact ⟨rfl, rfl⟩) (transferInv_congr htransfer hxfer hphase (by rw [hseq]) (by rw [hseq]))

/-! ### The handler -/

/-- The handler's CMD12 in the default layout: what the word completes with, and the next phase. -/
theorem irqStop_eq_next {s t : State} (hstd : standard s = true) (h : irqStop s = .next t) :
    ∃ u, Completes (.cmd12 0) (s.setEngine { s.engine with appPending := false }) u ∧ t = setPhase .collect u := by
  have hd : decode s.params.layout false (encode s.params.layout (.cmd12 0)) = .instr (.cmd12 0) := by
    rw [layout_of_standard hstd]
    exact decode_encode (.cmd12 0)
  simp only [irqStop, hd] at h
  obtain ⟨u, hu, rfl⟩ := onNext_eq_next h
  exact ⟨u, exec_completes hu, rfl⟩

/-- A phase of the handler that leaves the transfer in flight. -/
theorem transferInv_of_inFlight {s t : State} (h : transferInv s = true) (hflight : s.xfer.inFlight = true)
    (hseq : t.seq = s.seq) (hin : t.xfer.inFlight = s.xfer.inFlight) (hdone : t.xfer.completed = s.xfer.completed) :
    transferInv t = true := by
  obtain ⟨hcompleted, -, hready, hacquired, hseen⟩ := transferInv_iff.mp h
  rw [transferInv_iff, hseq, hin, hdone]
  exact ⟨hcompleted, fun _ => hflight, hready, hacquired, hseen⟩

theorem irqAction_safeInv {s t : State} (hs : safeInv s = true) (hphase : s.irq.phase ≠ .idle)
    (h : irqAction s = .next t) : safeInv t = true := by
  obtain ⟨hstd, htransfer, -, -, -, -, -, hidle⟩ := safeInv_iff.mp hs
  obtain ⟨-, hruns, hready, hacquired, -⟩ := transferInv_iff.mp htransfer
  have hflight := hruns hphase
  have hrests : ¬ s.seq.pc.running = true := by simp [hready hflight, SeqPoint.running]
  have hseq := (irqAction_seq_calls h).1
  have hpc : t.seq.pc = s.seq.pc := by rw [hseq]
  have hkept := transferInv_of_inFlight htransfer hflight hseq
  unfold irqAction at h
  split at h
  next hi => exact absurd hi hphase
  · cases h
    obtain ⟨hparams, hengine, hloop, hin, hdone, -⟩ := irqDispatch_frame s
    exact safeInv_of_kept hs hparams hpc (by rw [hengine]) (by rw [irqDispatch_session]) (hloop.trans hidle)
      (fun hrun => absurd hrun hrests) (hkept hin hdone)
  · obtain ⟨u, hu, rfl⟩ := irqStop_eq_next hstd h
    have hxfer := hu.frame.xfer
    exact safeInv_of_kept hs hu.frame.params hpc hu.frame.slot (hu.session_of_discards fun _ _ => rfl) hu.loop
      (fun hrun => absurd hrun hrests) (hkept (congrArg Transfer.inFlight hxfer) (congrArg Transfer.completed hxfer))
  · cases h
    obtain ⟨hparams, hengine, hloop, hin, hdone, -⟩ := irqCollect_frame s
    exact safeInv_of_kept hs hparams hpc (by rw [hengine]) (by rw [irqCollect_session]) (hloop.trans hidle)
      (fun hrun => absurd hrun hrests) (hkept hin hdone)
  · cases h
    refine safeInv_of_kept hs (by simp [irqRelease, irqReturn]) hpc (by simp [irqRelease, irqReturn])
      (by rw [irqRelease_session]) (by simp [irqRelease, irqReturn, hidle]) (fun hrun => absurd hrun hrests) ?_
    rw [transferInv_iff, hseq]
    simp [irqRelease, irqReturn]

/-! ### The word in the slot -/

theorem resultOk_of_running {s : State} (h : s.seq.pc.running = true) : resultOk s = true := by
  unfold resultOk
  split
  next hpc => rw [hpc] at h; cases h
  next hpc => rw [hpc] at h; cases h
  next => rfl

/-- The word that a point awaits, once run, leaves the session as the point asks: it alone writes the OCR or the RCA. -/
theorem SessionAt.after_word {s t : State} {i : Instr} {p : SeqPoint} {rca : Option Word} {out : EngOutcome}
    (h : SessionAt p true out s.session) (hi : p.awaited rca = some i) (hdone : Completes i (fetched i s) t)
    (hstores : Stores i s.session t.session) : SessionAt p false t.engine.reply.out t.session := by
  have hpoint := storePoint_of_awaited hi
  have hocr (hne : ∀ n, p ≠ .voltCondReply n) : t.session.ocr = s.session.ocr := by
    by_contra hchanged
    obtain ⟨a, rfl | rfl⟩ := hstores.ocr hchanged
    · exact hpoint.elim hne
    · exact hpoint
  have hrca (hne : p ≠ .addrReply) : t.session.rca = s.session.rca := by
    by_contra hchanged
    obtain ⟨a, rfl⟩ := hstores.rca hchanged
    exact hne hpoint
  have hversion : t.session.version2 = s.session.version2 := by rw [hstores.kept]
  have hscr : t.session.scr = s.session.scr := by rw [hstores.kept]
  have hcond {k : Nat} (hk : 5 ≤ k) (hr : k ≤ p.state.rank) (n : Nat) : p ≠ .voltCondReply n := by
    rintro rfl
    simp only [SeqPoint.state, SeqState.rank] at hr
    omega
  have haddr (hr : p.state.rank ≠ 7) : p ≠ .addrReply := by
    rintro rfl
    exact hr rfl
  exact {
    version := hversion ▸ h.version
    ocr := fun hr => hocr (hcond le_rfl hr) ▸ h.ocr hr
    ocrTaken := by
      rintro n rfl - hout
      cases hi
      rw [hdone.session_of_success hout]
      rfl
    capacity := fun hr => hocr (hcond (by decide) hr) ▸ h.capacity hr
    rca := fun hr => hrca (haddr (by omega)) ▸ h.rca hr
    rcaTaken := by
      rintro rfl - hout
      cases hi
      rw [hdone.session_of_success hout]
      rfl
    noRca := by
      rintro (⟨hrun, hr⟩ | rfl | ⟨-, hw⟩)
      · exact hrca (haddr (by omega)) ▸ h.noRca (.inl ⟨hrun, hr⟩)
      · exact hrca nofun ▸ h.noRca (.inr (.inl rfl))
      · cases hw
    scr := hscr ▸ h.scr
    wide := hscr ▸ h.wide }

theorem word_safeInv {s t : State} {w : CmdWord} {i : Instr} (hs : safeInv s = true) (hw : s.engine.slot = some w)
    (hi : decode s.params.layout s.engine.appPending w = .instr i) (h : exec i (fetched i s) = .next t) :
    safeInv t = true := by
  obtain ⟨hstd, htransfer, -, -, hsess, -, hcounters, -⟩ := safeInv_iff.mp hs
  have hawaited := awaited_of_waiting hs hw hi
  have hdone := exec_completes h
  have hseq : t.seq = s.seq := hdone.frame.seq
  have hslot : t.engine.slot = none := hdone.frame.slot
  have happ : t.engine.appPending = i.isPrefix := hdone.frame.appPending
  have hparams : t.params = s.params := hdone.frame.params
  rw [sessionOk_iff, hw] at hsess
  have hat := SessionAt.after_word hsess hawaited hdone (exec_stores (s := fetched i s) h)
  refine safeInv_iff.mpr ⟨by rwa [standard, hparams], ?_, by rw [slotOk, hslot], ?_, ?_, ?_, ?_, hdone.loop⟩
  · exact transferInv_congr htransfer hdone.frame.xfer hdone.frame.phase (by rw [hseq]) (by rw [hseq])
  · rw [prefixOk_iff (hseq ▸ hat.rca), hseq, hslot, happ]
    exact fun _ => (prefixBit_of_awaited hawaited false).symm
  · rw [sessionOk_iff, hseq, hslot]
    exact hat
  · exact resultOk_of_running (hseq ▸ running_of_awaited hawaited)
  · rwa [countersOk, hseq, hparams]

/-! ### Polls and calls -/

/-- A read of `completed` as true acquires, which the discipline of the record admits. -/
theorem transferInv_of_acquired {s t : State} (h : transferInv s = true) (hxfer : t.xfer = s.xfer)
    (hphase : t.irq.phase = s.irq.phase) (hpc : t.seq.pc = s.seq.pc)
    (hacquired : t.seq.acquired = s.seq.acquired ∨ s.xfer.completed = true ∧ t.seq.acquired = true) :
    transferInv t = true := by
  rcases hacquired with hacquired | ⟨hdone, hacquired⟩
  · exact transferInv_congr h hxfer hphase hpc hacquired
  · obtain ⟨hcompleted, hruns, hready, -, -⟩ := transferInv_iff.mp h
    have hflight : s.xfer.inFlight = false := by
      by_contra hne
      simp [hcompleted (by simpa using hne)] at hdone
    rw [transferInv_iff, hxfer, hphase, hpc, hacquired]
    exact ⟨hcompleted, hruns, hready, by simp [hflight], nofun⟩

/-- A change of the acquisition and of what it does not speak of. -/
theorem safeInv_of_acquired {s t : State} (h : safeInv s = true) (hparams : t.params = s.params) (hxfer : t.xfer = s.xfer)
    (hpc : t.seq.pc = s.seq.pc) (hphase : t.irq.phase = s.irq.phase) (hengine : t.engine = s.engine)
    (hsession : t.session = s.session) (hloop : t.loop = s.loop)
    (hacquired : t.seq.acquired = s.seq.acquired ∨ s.xfer.completed = true ∧ t.seq.acquired = true) :
    safeInv t = true := by
  obtain ⟨-, htransfer, -, -, -, -, -, hidle⟩ := safeInv_iff.mp h
  exact safeInv_of_kept h hparams hpc (by rw [hengine]) (by rw [hsession]) (hloop.trans hidle)
    (fun _ => by rw [hengine]; exact ⟨rfl, rfl⟩) (transferInv_of_acquired htransfer hxfer hphase hpc hacquired)

theorem waitPoll_safeInv {left : Nat} {s t : State} (hs : safeInv s = true) (h : waitPoll left s = .next t) :
    safeInv t = true := by
  simp only [waitPoll] at h
  split at h
  next hdone =>
    cases h
    exact safeInv_of_acquired hs (by simp [recordSeen]) (by simp [recordSeen]) (by simp [recordSeen])
      (by simp [recordSeen]) (by simp [recordSeen]) (by simp [recordSeen]) (by simp [recordSeen]) (.inr ⟨hdone, rfl⟩)
  next =>
    split at h <;> cases h <;>
      exact safeInv_of_acquired hs (by simp [recordSeen]) (by simp [recordSeen]) (by simp [recordSeen])
        (by simp [recordSeen]) (by simp [recordSeen]) (by simp [recordSeen]) (by simp [recordSeen])
        (.inl (by simp [recordSeen]))

theorem bringUp_safeInv {rate : Nat} {s t : State} (hs : safeInv s = true) (h : bringUp rate s = .next t) :
    safeInv t = true := by
  obtain ⟨hstd, htransfer, -, -, -, -, -, hidle⟩ := safeInv_iff.mp hs
  obtain ⟨hfree, hflight⟩ := free_of_bringUp h
  have hslot : s.engine.slot = none := by
    simp only [seqBusy, Bool.or_eq_false_iff] at hfree
    simpa using hfree.2
  unfold bringUp at h
  split at h
  · cases h
  · split at h <;> cases h
    refine safeInv_iff.mpr ⟨hstd, ?_, ?_, rfl, ?_, rfl, rfl, hidle⟩
    · exact transferInv_of_not_inFlight htransfer hflight rfl rfl rfl
    · simp [slotOk, hslot]
    · rw [sessionOk_iff]
      constructor <;> simp [SeqPoint.state, SeqState.rank, Session.unwritten]

theorem startTransfer_safeInv {multi : Bool} {s t : State} (hs : safeInv s = true)
    (h : startTransfer multi s = .next t) : safeInv t = true := by
  obtain ⟨-, -, -, -, -, -, -, hidle⟩ := safeInv_iff.mp hs
  obtain ⟨hadmitted, hxfer, hseq, hparams, hengine, hloop, -⟩ := startTransfer_eq_next h
  have hready : s.seq.pc = .ready := by
    simp only [startAdmitted, Bool.and_eq_true, beq_iff_eq] at hadmitted
    exact hadmitted.1.1
  refine safeInv_of_kept hs hparams (by rw [hseq]) (by rw [hengine]) (by rw [startTransfer_session h]) (hloop.trans hidle)
    (fun _ => by rw [hengine]; exact ⟨rfl, rfl⟩) ?_
  rw [transferInv_iff, hxfer, hseq]
  simp [hready]

theorem readRecord_safeInv {f : RecField} {s t : State} (hs : safeInv s = true) (h : readRecord f s = .next t) :
    safeInv t = true := by
  cases h
  refine safeInv_of_acquired hs (by simp) (by simp) (by simp) (by simp) (by simp) (by simp) (by simp) ?_
  by_cases hread : f = .completed ∧ s.xfer.completed = true
  · exact .inr ⟨hread.2, by simp [hread]⟩
  · have hnot : (decide (f = .completed) && s.xfer.completed) = false := by simpa using hread
    exact .inl (by simp [hnot])

theorem doCall_safeInv {op : HostOp} {s t : State} (hs : safeInv s = true) (h : doCall op s = .next t) :
    safeInv t = true := by
  cases op with
  | bringUp rate => exact bringUp_safeInv hs h
  | startTransfer multi => exact startTransfer_safeInv hs h
  | waitTransfer =>
    cases h
    exact safeInv_of_acquired hs rfl rfl rfl rfl rfl rfl rfl (.inl rfl)
  | shortRead bytes =>
    obtain ⟨hacc, hloop⟩ := beginShortRead_accesses h
    exact safeInv_of_same hs hacc.params hacc.xfer hacc.seq hacc.phase hacc.engine (beginShortRead_session h) hloop
  | memRead addr width =>
    obtain ⟨r, rfl⟩ := memRead_eq_next h
    exact safeInv_of_same hs (by simp) (by simp) (by simp) (by simp) (by simp) (by simp) (by simp)
  | memWrite addr width v =>
    obtain ⟨r, rfl⟩ := memWrite_eq_next h
    exact safeInv_of_same hs (by simp) (by simp) (by simp) (by simp) (by simp) (by simp) (by simp)
  | readRecord f => exact readRecord_safeInv hs h
  | routeIrq =>
    cases h
    exact safeInv_of_same hs (by simp) (by simp) (by simp) (by simp) (by simp) (by simp) (by simp)

/-! ### The sequencer's actions -/

section
variable {s : State} {q p : SeqPoint} {x : Session} {w : Option CmdWord} (h : Goes s q p x w)
include h

theorem Goes.running : q.running = true := by
  cases h with
  | issues h => cases h <;> rfl
  | follows h => cases h <;> rfl
  | _ => rfl

/-- A word waits at the point that takes its outcome. -/
theorem Goes.waiting (hslot : s.engine.slot = none) :
    w = none ∨ ∃ i, p.awaited x.rca = some i ∧ w = some (encode s.params.layout i) := by
  cases h with
  | issues _ hi => exact .inr ⟨_, hi, rfl⟩
  | _ => exact .inl hslot

/-- A point finds `app_pending` as it asks. -/
theorem Goes.prefixBit_eq (hslot : s.engine.slot = none) : p.prefixBit w.isSome = q.prefixBit false := by
  cases h with
  | issues h => cases h <;> rfl
  | follows h => rw [hslot]; cases h <;> rfl
  | _ => rw [hslot]; rfl

theorem Goes.sessionAt (hslot : s.engine.slot = none) {out : EngOutcome} (hout : out = s.engine.reply.out)
    (hq : SessionAt q false out s.session) : SessionAt p w.isSome out x := by
  subst hout
  have hat := hq
  rw [sessionAt_iff] at hq ⊢
  cases h with
  | issues h _ hwide =>
    cases h with
    | widthPrefix => simpa [SeqPoint.state, SeqState.rank, SeqPoint.running, hwide rfl] using hq
    | _ => simpa [SeqPoint.state, SeqState.rank, SeqPoint.running] using hq
  | follows h hsuccess =>
    cases h <;> simpa [SeqPoint.state, SeqState.rank, SeqPoint.running, hslot, hsuccess] using hq
  | negotiated _ hsuccess => simpa [SeqPoint.state, SeqState.rank, SeqPoint.running, hslot, hsuccess] using hq
  | negotiatesAgain =>
    have hkept : s.session.version2 = some true ∧ s.session.rca = none :=
      ⟨hat.version (Nat.le_refl 4), hat.noRca (.inl ⟨rfl, show 4 < 7 by decide⟩)⟩
    simpa [SeqPoint.state, SeqState.rank, SeqPoint.running, hslot] using hkept
  | capable ho hccs => simpa [SeqPoint.state, SeqState.rank, SeqPoint.running, hslot, ho, hccs] using hq
  | _ => simpa [SeqPoint.state, SeqState.rank, SeqPoint.running, hslot] using hq

end

/-- The counters that the point speaks of are in range: a loop's next round is within its budget. -/
theorem Goes.countersOk {s t : State} {q p : SeqPoint} {x : Session} {w : Option CmdWord} (h : Goes s q p x w)
    (hq : s.seq.pc = q) (hs : countersOk s = true) (hpc : t.seq.pc = p) (hparams : t.params = s.params) :
    countersOk t = true := by
  unfold Machine.countersOk at hs ⊢
  rw [hq] at hs
  rw [hpc, hparams]
  cases h with
  | issues h => cases h <;> exact hs
  | follows h => cases h <;> exact hs
  | probesAgain hn | negotiatesAgain hn | queriesAgain hn => exact decide_eq_true hn
  | probed | sped => exact decide_eq_true (Nat.succ_pos _)
  | poweredUp | negotiated | capable | primed | drained | ready => rfl

theorem goes_safeInv {s t : State} {p : SeqPoint} {x : Session} {w : Option CmdWord} (hs : safeInv s = true)
    (hslot : s.engine.slot = none) (h : Goes s s.seq.pc p x w) (hm : Moved p x w s t) : safeInv t = true := by
  obtain ⟨hstd, htransfer, -, hprefix, hsess, -, hcounters, hidle⟩ := safeInv_iff.mp hs
  rw [sessionOk_iff, hslot] at hsess
  have hat : SessionAt p w.isSome s.engine.reply.out t.session :=
    (h.sessionAt hslot rfl hsess).congr (by rw [hm.session]) (by rw [hm.session]) (by rw [hm.session]) (by rw [hm.session])
  rw [prefixOk_iff hsess.rca, hslot] at hprefix
  refine safeInv_iff.mpr ⟨by rwa [standard, hm.params], ?_, ?_, ?_, ?_, ?_, h.countersOk rfl hcounters hm.pc hm.params,
    hm.loop hidle⟩
  · have hready : s.seq.pc ≠ .ready := fun hpc => by simpa [hpc, SeqPoint.running] using h.running
    exact transferInv_of_not_inFlight htransfer (not_inFlight_of_ne_ready htransfer hready) hm.xfer hm.phase
      (by rw [hm.seq])
  · unfold slotOk
    rw [hm.engine, hm.pc, hm.session, hm.params]
    obtain rfl | ⟨i, hi, rfl⟩ := h.waiting hslot
    · rfl
    · simp [hi]
  · rw [prefixOk_iff (hm.pc ▸ hat.rca), hm.pc, hm.engine]
    exact fun _ => (hprefix h.running).trans (h.prefixBit_eq hslot).symm
  · rw [sessionOk_iff, hm.pc, hm.engine]
    exact hat
  · unfold resultOk
    rw [hm.pc]
    split
    next =>
      obtain ⟨-, -, -, hresult⟩ := h.to_ready
      rw [hm.session, hresult]
      rfl
    next => exact absurd h Goes.not_failed
    next => rfl

theorem fail_safeInv {s u : State} {e : ErrKind} (hs : safeInv s = true) (hslot : s.engine.slot = none)
    (hedge : s.seq.pc.state.mayMove (.failed e) = true) (hu : FailsAfter s u) : safeInv (fail e u) = true := by
  obtain ⟨hstd, htransfer, -, -, -, -, -, hidle⟩ := safeInv_iff.mp hs
  have hready : s.seq.pc ≠ .ready := fun hpc => by
    rw [hpc] at hedge
    cases hedge
  have hparams : u.params = s.params := hu.accesses.params
  have hxfer : u.xfer = s.xfer := hu.accesses.xfer
  have hphase : u.irq.phase = s.irq.phase := hu.accesses.phase
  have hseq : u.seq = s.seq := hu.accesses.seq
  have hnone : u.engine.slot = none := (congrArg Engine.slot hu.accesses.engine).trans hslot
  refine safeInv_iff.mpr ⟨by simpa [standard, fail, hparams] using hstd, ?_, by simp [slotOk, fail, hnone], rfl, ?_, ?_,
    rfl, hu.loop hidle⟩
  · exact transferInv_of_not_inFlight htransfer (not_inFlight_of_ne_ready htransfer hready) hxfer hphase
      (by simp [fail, hseq])
  · rw [sessionOk_iff]
    constructor <;> simp [fail, SeqPoint.state, SeqState.rank, SeqPoint.running]
  · simp [resultOk, fail]

/-- Settles O43: each kind of step keeps the invariant. -/
theorem stepKeepsTheInvariant : Obligations.StepKeepsTheInvariant := by
  unfold Obligations.StepKeepsTheInvariant
  intro s t hs h
  cases step_kind h with
  | enters _ hflight h =>
    subst h
    obtain ⟨-, htransfer, -, -, -, -, -, hidle⟩ := safeInv_iff.mp hs
    exact safeInv_of_kept hs rfl rfl rfl rfl hidle (fun _ => ⟨rfl, rfl⟩)
      (transferInv_of_inFlight htransfer hflight rfl rfl rfl)
  | handles hphase h => exact irqAction_safeInv hs hphase h
  | runs _ hslot hi h => exact word_safeInv hs hslot hi h
  | polls _ _ h => exact waitPoll_safeInv hs h
  | @calls _ rest _ _ h => exact doCall_safeInv (s := s.setCalls rest) hs h
  | acts _ hslot h =>
    cases h with
    | rests _ h =>
      subst h
      exact safeInv_of_same hs (by simp) (by simp) (by simp) (by simp) (by simp) (by simp) (by simp)
    | goes h hm => exact goes_safeInv hs hslot h hm
    | fails hedge hu h => exact h ▸ fail_safeInv hs hslot hedge hu

end Sys2Proof.Machine
end

section
/-! PROOFS. The clock arithmetic of BringUp over exact rationals (O26 to O28). -/

namespace Sys2Proof.Machine

/-- The rounded-up integer quotient is the ceiling of the rational one. -/
theorem natCast_ceilDiv (n : Nat) {d : Nat} (hd : 0 < d) : (((n + d - 1) / d : Nat) : Int) = ⌈(n : ℚ) / d⌉ := by
  have hle : n ≤ d * ((n + d - 1) / d) := le_smul_ceilDiv (b := n) hd
  have hlt : d * ((n + d - 1) / d) < n + d := (Nat.mul_div_le _ d).trans_lt (by omega)
  have hd' : (0 : ℚ) < d := by exact_mod_cast hd
  refine (Int.ceil_eq_iff.mpr ⟨?_, ?_⟩).symm
  · rw [lt_div_iff₀ hd', sub_mul, one_mul, sub_lt_iff_lt_add, mul_comm]
    exact_mod_cast hlt
  · rw [div_le_iff₀ hd', mul_comm]
    exact_mod_cast hle

theorem natCast_speedDivider (pclk : Nat) {rate : Nat} (hrate : 1 ≤ rate) :
    (speedDivider pclk rate : Int) = ⌈(pclk : ℚ) / (2 * rate)⌉ := by
  rw [speedDivider, natCast_ceilDiv pclk (by omega)]
  norm_cast

theorem one_le_speedDivider {pclk rate : Nat} (hpclk : 1 ≤ pclk) (hrate : 1 ≤ rate) : 1 ≤ speedDivider pclk rate :=
  (Nat.one_le_div_iff (by omega)).mpr (by omega)

/-- Settles O26: the floor by `Rat.floor_natCast_div_natCast`, the ceiling by the rounded-up quotient. -/
theorem dividerLaws : Obligations.DividerLaws := by
  unfold Obligations.DividerLaws
  refine ⟨fun pclk => ⟨?_, rfl⟩, fun pclk rate hpclk hrate => ⟨natCast_speedDivider pclk hrate, rfl,
    one_le_speedDivider hpclk hrate⟩⟩
  exact_mod_cast (Rat.floor_natCast_div_natCast pclk 800000).symm

/-- Settles O27: the settle time is one more than a rounded-up quotient. -/
theorem settleTimeIsTheCeiling : Obligations.SettleTimeIsTheCeiling := by
  unfold Obligations.SettleTimeIsTheCeiling
  intro pclk d hpclk hd
  refine ⟨?_, rfl⟩
  have hpclk' : (pclk : ℚ) ≠ 0 := by exact_mod_cast (by omega : pclk ≠ 0)
  have hd' : (d : ℚ) ≠ 0 := by exact_mod_cast (by omega : d ≠ 0)
  have hrate : (74000 : ℚ) / (pclk / (2 * d * 1000)) = ((148000000 * d : Nat) : ℚ) / pclk := by
    push_cast
    field_simp
    ring
  rw [hrate, Int.ceil_one_add, ← natCast_ceilDiv _ hpclk, settleUs]
  push_cast
  rfl

theorem clockInRange_iff {pclk rate : Nat} : clockInRange pclk rate = true ↔
    800000 ≤ pclk ∧ 1 ≤ rate ∧ initDivider pclk ≤ 1023 ∧ speedDivider pclk rate ≤ 1023 := by
  simp only [clockInRange, Bool.and_eq_true, decide_eq_true_eq, and_assoc]

/-- Settles O28: a floor divider keeps the clock above its rate, a ceiling divider below. -/
theorem busClockBounds : Obligations.BusClockBounds := by
  unfold Obligations.BusClockBounds
  intro pclk rate h
  obtain ⟨hpclk, hrate, hinit, hspeed⟩ := clockInRange_iff.mp h
  have hinit1 : 1 ≤ initDivider pclk := (Nat.one_le_div_iff (by decide)).mpr hpclk
  have hspeed1 := one_le_speedDivider (by omega : 1 ≤ pclk) hrate
  have hfloor : 800000 * initDivider pclk ≤ pclk := Nat.mul_div_le pclk 800000
  have hceil : pclk ≤ 2 * rate * speedDivider pclk rate := le_smul_ceilDiv (b := pclk) (by omega : 0 < 2 * rate)
  refine ⟨?_, ?_, hinit1, hinit, hspeed1, hspeed⟩
  · have hpos : (0 : ℚ) < 2 * initDivider pclk := by exact_mod_cast (by omega : 0 < 2 * initDivider pclk)
    rw [le_div_iff₀ hpos]
    exact_mod_cast (by omega : 400000 * (2 * initDivider pclk) ≤ pclk)
  · have hpos : (0 : ℚ) < 2 * speedDivider pclk rate := by exact_mod_cast (by omega : 0 < 2 * speedDivider pclk rate)
    rw [div_le_iff₀ hpos]
    have hnat : pclk ≤ rate * (2 * speedDivider pclk rate) := hceil.trans_eq (by ring)
    exact_mod_cast hnat

end Sys2Proof.Machine
end

section
/-! PROOFS. What BringUp's entry and each point of the sequencer do where nothing else can act (O30 to O34, O36 to O38). -/

namespace Sys2Proof.Machine

/-! ### Steps that take the outcome of a word -/

theorem next_ite (c : Prop) [Decidable c] (t u : State) :
    (.next (if c then t else u) : StepResult) = if c then .next t else .next u :=
  apply_ite Host.Outcome.next c t u

/-- What an action that takes an outcome does: it goes on after Success, and the error of any other outcome ends BringUp
(00_scope.md R11). -/
theorem afterReply_outcomes (s : State) (k : StepResult) :
    (s.engine.reply.out = .crcFailure → afterReply s k = .next (fail .crcFailure s))
      ∧ (s.engine.reply.out = .hwTimeout ∨ s.engine.reply.out = .budgetExhausted → afterReply s k = .next (fail .timeout s))
      ∧ (s.engine.reply.out = .success → afterReply s k = k) := by
  refine ⟨fun h => ?_, ?_, fun h => ?_⟩
  · rw [afterReply, h]
    rfl
  · rintro (h | h) <;> rw [afterReply, h] <;> rfl
  · rw [afterReply, h]
    rfl

/-- Settles O32: the two actions by the outcome; ten trials are the numbers from 0 to 9. -/
theorem idleAndProbeOutcomes : Obligations.IdleAndProbeOutcomes := by
  unfold Obligations.IdleAndProbeOutcomes
  intro s hquiet
  rw [step_of_quiet hquiet]
  refine ⟨fun hpc => ?_, fun trial hpc => ⟨fun hout => ?_, ?_, fun hout => ?_⟩⟩
  · rw [seqStep, hpc, next_ite]
    rfl
  · simp [seqStep, hpc, stepProbeReply, hout]
  · rintro (hout | hout) <;> simp [seqStep, hpc, stepProbeReply, hout]
  · have hlast : trial + 1 < versionTrials ↔ trial < 9 := by simp [versionTrials]; omega
    simp only [seqStep, hpc, stepProbeReply, hout, hlast, next_ite]

/-- Settles O33: both replies of a round are taken by `afterReply`, and what follows Success by the echo or by bit 31. -/
theorem voltageNegotiationRounds : Obligations.VoltageNegotiationRounds := by
  unfold Obligations.VoltageNegotiationRounds
  intro round s hstd hquiet
  rw [step_of_quiet hquiet]
  refine ⟨fun hpc => ?_, fun hpc => ?_⟩
  · rw [seqStep, hpc]
    obtain ⟨hcrc, htimeout, hsuccess⟩ := afterReply_outcomes s _
    refine ⟨hcrc, htimeout, fun hout => (hsuccess hout).trans ?_⟩
    have hecho (r : Word) : echoIndex s.params.layout r = r.extractLsb' 0 6 := by rw [layout_of_standard hstd]; rfl
    simp only [hecho, next_ite]
    rfl
  · rw [seqStep, hpc]
    obtain ⟨hcrc, htimeout, hsuccess⟩ := afterReply_outcomes s _
    refine ⟨hcrc, htimeout, fun hout => (hsuccess hout).trans ?_⟩
    simp only [next_ite]
    rfl

/-- Settles O38: each reply is taken by `afterReply`, and what follows CMD13's Success by the card state. -/
theorem readyCheckOutcomes : Obligations.ReadyCheckOutcomes := by
  unfold Obligations.ReadyCheckOutcomes
  refine ⟨fun s hquiet e he hpc => ?_, fun query s hquiet hpc => ?_⟩
  · have hstep : step s = afterReply s (.next (s.setPc e.2)) := by
      rw [step_of_quiet hquiet, seqStep, hpc]
      simp only [List.mem_cons, List.not_mem_nil, or_false] at he
      rcases he with rfl | rfl | rfl | rfl | rfl | rfl | rfl | rfl | rfl <;> rfl
    obtain ⟨hcrc, htimeout, hsuccess⟩ := afterReply_outcomes s (.next (s.setPc e.2))
    rw [hstep]
    exact ⟨hsuccess, hcrc, htimeout⟩
  · rw [step_of_quiet hquiet, seqStep, hpc]
    obtain ⟨hcrc, htimeout, hsuccess⟩ := afterReply_outcomes s _
    refine ⟨hcrc, htimeout, fun hout => (hsuccess hout).trans ?_⟩
    simp only [next_ite]
    rfl

/-! ### The capability checks -/

/-- Bit 50 of the corrected SCR is the 4-bit capability (30_encoding.md R107). -/
theorem wide4_eq (scr : DWord) : wide4 scr = scr.getLsbD 50 := by
  rw [Bool.eq_iff_iff, wide4_iff]
  simp [hiHalf]

/-- Settles O34: each check reads its register, and its bit decides. -/
theorem capabilityChecks : Obligations.CapabilityChecks := by
  unfold Obligations.CapabilityChecks
  intro s hstd hquiet
  rw [step_of_quiet hquiet]
  refine ⟨fun hpc => ⟨fun hocr => ?_, fun o hocr => ?_⟩, fun hpc => ?_⟩
  · rw [seqStep, hpc]
    simp only [stepCapacity, hocr, withSession]
  · rw [seqStep, hpc]
    simp only [stepCapacity, hocr, withSession, next_ite]
    rfl
  · have hrca := putWithRca_issues .cmd55 .widthPrefixReply 0x1137 s fun a => by
      rw [layout_of_standard hstd]
      exact congrArg (CmdWord.mk a) (show cmdw standardLayout 55 .short = 0x1137 by decide)
    have hcheck (d : DWord) (hd : s.session.scr = some d) : stepWidthPrefix s =
        if d.getLsbD 50 then putWithRca .cmd55 .widthPrefixReply s else .next (fail .busWidthUnsupported s) := by
      simp only [stepWidthPrefix, hd, withSession, wide4_eq]
    rw [seqStep, hpc]
    refine ⟨fun hscr => ?_, fun d hd hwide => ?_, fun d hd hwide hnone => ?_, fun d rca hd hwide hsome => ?_⟩
    · simp only [stepWidthPrefix, hscr, withSession]
    · rw [hcheck d hd, if_neg (ne_true_of_eq_false hwide)]
    · rw [hcheck d hd, if_pos hwide, hrca.1 hnone]
    · obtain ⟨t, ht, hengine, hseq, hkept⟩ := hrca.2 rca hsome
      exact ⟨t, by rw [hcheck d hd, if_pos hwide, ht], hseq, hengine, hkept⟩

/-! ### The drain of ConfigurationRetrieval -/

theorem lineDown_of_quiet {s : State} (h : quiet s = true) : canInterrupt s = false := by
  simp only [quiet, Bool.and_eq_true, Bool.not_eq_true'] at h
  obtain ⟨⟨⟨⟨-, hline⟩, -⟩, -⟩, -⟩ := h
  exact hline

/-- Where the line cannot reach the handler the accesses of a drain leave it so, and the latch as it was. -/
def LineDown (s u : State) : Prop := canInterrupt u = false ∧ u.irq = s.irq

theorem LineDown.readNext {s u : State} {r : Reg} (hr : r ≠ .maskr) (h : LineDown s u) : LineDown s (readNext r u) := by
  have hline := (canInterrupt_readNext hr u).trans h.1
  refine ⟨hline, ?_⟩
  rw [Machine.readNext, canInterrupt_point] at hline
  rw [Machine.readNext, point_of_lineDown hline, ← h.2]
  cases r.port <;> simp

theorem LineDown.writeReg {s u : State} {r : Reg} (hr : r ≠ .maskr) (v : Word) (h : LineDown s u) :
    LineDown s (writeReg r v u) := by
  have hline := (canInterrupt_writeReg hr v u).trans h.1
  refine ⟨hline, ?_⟩
  rw [Machine.writeReg, canInterrupt_point] at hline
  rw [Machine.writeReg, point_of_lineDown hline, ← h.2]
  rfl

/-- A change of neither the registers nor the interrupt. -/
theorem LineDown.congr {s u v : State} (h : LineDown s u) (hirq : v.irq = u.irq) (hregs : v.regs = u.regs) :
    LineDown s v :=
  ⟨by rw [canInterrupt, hirq, hregs]; exact h.1, hirq.trans h.2⟩

theorem drain_irq (e m : Nat) {s : State} (hline : canInterrupt s = false) : (drain e m s).2.2.irq = s.irq := by
  have hstart : LineDown s (startDrain s) := ⟨hline, rfl⟩
  have hpoll (u : State) (h : LineDown s u) : LineDown s (pollNext u) :=
    (h.readNext (r := .star) (by decide)).congr rfl rfl
  have hpair (ws : List Word) (u : State) (h : LineDown s u) : LineDown s (countWords ws (pullPair u).2) :=
    ((h.readNext (r := .fifor) (by decide)).readNext (r := .fifor) (by decide)).congr rfl rfl
  have hloop := drainLoop_induct hpoll hpair e m [] _ hstart
  exact (hloop.writeReg (r := .icr) (by decide) (dataFlags s.params.layout)).2

theorem overrunOutcome_ne_success (p : Params) : overrunOutcome p ≠ .success := by
  unfold overrunOutcome
  split <;> nofun

theorem drainOutcome_terminal_ne_success (p : Params) (st : Word) (n e : Nat) : drainOutcome p (some st) n e ≠ .success := by
  simp only [drainOutcome]
  split
  · nofun
  · split
    · nofun
    · split
      · exact overrunOutcome_ne_success p
      · nofun

/-- A drain that succeeds has read the words asked for (41_datapath.md R162). -/
theorem words_of_drainOutcome {p : Params} {term : Option Word} {n e : Nat} (h : drainOutcome p term n e = .success) :
    e ≤ n := by
  cases term with
  | some st => exact absurd h (drainOutcome_terminal_ne_success p st n e)
  | none =>
    by_contra hne
    simp [drainOutcome, hne] at h

section
variable {s u : State} (hfree : engineBusy s = false)
include hfree

theorem stepConfigDrain_of_success {w0 w1 : Word} {rest : List Word}
    (h : drain 2 s.params.drainBudget s = (w0 :: w1 :: rest, .success, u)) :
    stepConfigDrain s = .next ((storeScr w0 w1 u).setPc .widthPrefix) := by
  simp [stepConfigDrain, hfree, scrWords, h, DrainOutcome.err]

theorem stepConfigDrain_of_err {ws : List Word} {d : DrainOutcome} {e : ErrKind}
    (h : drain 2 s.params.drainBudget s = (ws, d, u)) (he : d.err = some e) :
    stepConfigDrain s = .next (fail e u) := by
  simp [stepConfigDrain, hfree, scrWords, h, he]

end

/-- Settles O36: the action is the drain, and its outcome decides what follows. -/
theorem scrIsStoredAfterTheDrain : Obligations.ScrIsStoredAfterTheDrain := by
  unfold Obligations.ScrIsStoredAfterTheDrain
  intro s hquiet hpc
  rw [step_of_quiet hquiet, seqStep, hpc]
  refine ⟨fun hflight => by simp [stepConfigDrain, engineBusy_of_quiet hquiet, hflight], fun hflight ws d u hdrain => ?_⟩
  have hfree : engineBusy s = false := (engineBusy_of_quiet hquiet).trans hflight
  have hacc := drain_accesses 2 s.params.drainBudget s
  have hkept := drain_kept 2 s.params.drainBudget s
  have hirq := drain_irq 2 s.params.drainBudget (lineDown_of_quiet hquiet)
  have hwords (hd : d = .success) : 2 ≤ ws.length := by
    have hout : (drain 2 s.params.drainBudget s).2.1 = .success := by rw [hdrain, hd]
    have hlen : 2 ≤ (drain 2 s.params.drainBudget s).1.length := words_of_drainOutcome hout
    rwa [hdrain] at hlen
  rw [hdrain] at hacc hkept hirq
  refine ⟨hacc.session, hacc.xfer, hacc.engine, hacc.seq, hirq, hkept.calls, fun r hstar hicr hfifor => ?_, fun hd => ?_,
    fun hd => ?_, fun hd => ?_⟩
  · exact hkept.regs r (by simp [hstar, hicr, hfifor])
  · obtain ⟨w0, w1, rest, rfl⟩ : ∃ w0 w1 rest, ws = w0 :: w1 :: rest := by
      match ws, hwords hd with
      | w0 :: w1 :: rest, _ => exact ⟨w0, w1, rest, rfl⟩
    exact ⟨w0, w1, rest, rfl, stepConfigDrain_of_success hfree (hd ▸ hdrain)⟩
  · exact stepConfigDrain_of_err hfree hdrain (by rw [hd]; rfl)
  · exact stepConfigDrain_of_err hfree hdrain (by rw [hd]; rfl)

end Sys2Proof.Machine
end

section
/-! PROOFS. The points that program the clock and the power (O31, O37). -/

namespace Sys2Proof.Machine

/-- Where the line cannot reach the handler a read-modify-write is its two accesses and the change of its register. -/
theorem rmw_of_lineDown {s : State} {r : Reg} (hline : canInterrupt s = false) (hp : r.port = none) (hr : r ≠ .maskr)
    (mask v : Word) :
    rmw r mask v s =
      ((s.setRegs (s.regs.set r (rmwWord (s.regs.get r) mask v))).emit (.read r (s.regs.get r &&& s.params.layout.rw.get r))).emit
        (.write r (rmwWord (s.regs.get r) mask v)) := by
  have hread : readNext r s = s.emit (.read r (s.regs.get r &&& s.params.layout.rw.get r)) := by
    rw [readNext, readValue, hp]
    exact point_of_lineDown hline
  have hquiet := (canInterrupt_rmw hp hr mask v s).trans hline
  rw [rmw, canInterrupt_point] at hquiet
  rw [rmw, point_of_lineDown hquiet, hread]
  rfl

/-- A field's bits are within a mask that holds the field. -/
theorem fieldAt_and_of_mask {n pos : Nat} {m : Word} (v : BitVec n)
    (h : fieldAt pos (BitVec.allOnes n) &&& m = fieldAt pos (BitVec.allOnes n)) : fieldAt pos v &&& m = fieldAt pos v := by
  have hself : fieldAt pos v &&& fieldAt pos (BitVec.allOnes n) = fieldAt pos v := by
    simp only [fieldAt, ← BitVec.shiftLeft_and_distrib, ← BitVec.setWidth_and, BitVec.and_allOnes]
  rw [← hself, BitVec.and_assoc, h]

/-- In the default layout the CLKCR value has bits in CLKCR_FIELDS only (10_state.md R52). -/
theorem clkcrValue_standard {p : Params} (hl : p.layout = standardLayout) (bus : BitVec 2) (div : BitVec 10) :
    clkcrValue p bus div = (p.hwfc.setWidth 32 <<< 17) ||| (p.negedge.setWidth 32 <<< 16) ||| (bus.setWidth 32 <<< 14)
        ||| (p.pwrsav.setWidth 32 <<< 12) ||| div.setWidth 32
      ∧ clkcrValue p bus div &&& 0x0003D3FF = clkcrValue p bus div := by
  refine ⟨by simp [clkcrValue, hl, fieldAt, standardLayout], ?_⟩
  simp only [clkcrValue, hl, BitVec.and_or_distrib_right]
  rw [fieldAt_and_of_mask _ (by decide), fieldAt_and_of_mask _ (by decide), fieldAt_and_of_mask _ (by decide),
    fieldAt_and_of_mask _ (by decide), fieldAt_and_of_mask _ (by decide)]

/-- What a read-modify-write of the clock fields leaves in CLKCR. -/
theorem clkcr_word {p : Params} (hl : p.layout = standardLayout) (old : Word) (bus : BitVec 2) (div : BitVec 10) :
    rmwWord old (clkcrFields p.layout) (clkcrValue p bus div) =
      (old &&& ~~~(0x0003D3FF : Word)) ||| ((p.hwfc.setWidth 32 <<< 17) ||| (p.negedge.setWidth 32 <<< 16)
        ||| (bus.setWidth 32 <<< 14) ||| (p.pwrsav.setWidth 32 <<< 12) ||| div.setWidth 32) := by
  obtain ⟨hvalue, hmask⟩ := clkcrValue_standard hl bus div
  rw [rmwWord, hl, clkcrFields_standard, hmask, hvalue]

/-- Settles O37: the action is one read-modify-write, and its word is read off bit by bit. -/
theorem speedTransitionEffect : Obligations.SpeedTransitionEffect := by
  unfold Obligations.SpeedTransitionEffect
  intro s hstd hquiet hpc
  have hl := layout_of_standard hstd
  have hword := clkcr_word hl s.regs.clkcr busFour s.seq.speedDiv
  have hstep : step s = stepSpeed s := by rw [step_of_quiet hquiet, seqStep, hpc]
  rw [hstep, stepSpeed, rmw_of_lineDown (lineDown_of_quiet hquiet) rfl (by decide)]
  refine ⟨_, rfl, rfl, rfl, rfl, rfl, rfl, rfl, rfl, rfl, rfl, fun r hr => Regs.get_set_ne _ _ hr, hword, ?_, ?_, rfl⟩
  · refine (congrArg (BitVec.extractLsb' 14 2) hword).trans ?_
    ext k hk
    interval_cases k <;> simp [busFour]
  · refine (congrArg (BitVec.extractLsb' 0 10) hword).trans ?_
    ext k hk
    interval_cases k <;> simp [busFour]

/-- The pin service, line by line (43_sequencer.md R211). -/
theorem configurePins_eq (s : State) : configurePins s = { s with
    trace := .pin .d3 s.params.pinAf :: .pin .d2 s.params.pinAf :: .pin .d1 s.params.pinAf :: .pin .d0 s.params.pinAf
      :: .pin .cmd s.params.pinAf :: .pin .clk s.params.pinAf :: s.trace } := by
  simp only [configurePins, List.foldl_cons, List.foldl_nil, State.emit]

theorem canInterrupt_configurePins (s : State) : canInterrupt (configurePins s) = canInterrupt s := by
  rw [configurePins_eq]
  rfl

/-- Settles O31: the action is the pin service, two read-modify-writes and the delay. -/
theorem powerUpEffect : Obligations.PowerUpEffect := by
  unfold Obligations.PowerUpEffect
  intro s hstd hquiet hpc
  have hl := layout_of_standard hstd
  have hline := (canInterrupt_configurePins s).trans (lineDown_of_quiet hquiet)
  have hclkcr := rmw_of_lineDown (r := .clkcr) hline rfl (by decide) (clkcrFields s.params.layout)
    (clkcrValue s.params busOne s.seq.initDiv)
  have hline' := (canInterrupt_rmw (r := .clkcr) rfl (by decide) (clkcrFields s.params.layout)
    (clkcrValue s.params busOne s.seq.initDiv) (configurePins s)).trans hline
  have hpower := rmw_of_lineDown (r := .power) hline' rfl (by decide) (pwrCtrl s.params.layout) (pwrCtrl s.params.layout)
  rw [hclkcr] at hpower
  rw [step_of_quiet hquiet, seqStep, hpc]
  simp only [stepPowerUp, hclkcr, hpower]
  rw [configurePins_eq]
  refine ⟨_, rfl, rfl, rfl, rfl, rfl, rfl, rfl, rfl, rfl, rfl, fun r hclkcr hpower => ?_, ?_, ?_, rfl⟩
  · exact (Regs.get_set_ne _ _ hpower).trans (Regs.get_set_ne _ _ hclkcr)
  · refine (clkcr_word hl s.regs.clkcr busOne s.seq.initDiv).trans ?_
    simp [busOne]
  · show rmwWord s.regs.power (pwrCtrl s.params.layout) (pwrCtrl s.params.layout) = _
    rw [hl, pwrCtrl_standard]
    rfl

end Sys2Proof.Machine
end

section
/-! PROOFS. How a step takes a call of HOST, and BringUp's entry (O30). -/

namespace Sys2Proof.Machine

/-- Where no handler runs or is requested and no word waits, a step is SEQ's own action or a call. -/
theorem step_of_no_word {s : State} (hphase : s.irq.phase = .idle) (hlatched : s.irq.latched = false)
    (hslot : s.engine.slot = none) : step s = seqCommit s (seqOrCall s) := by
  simp [step, hphase, hlatched, seqAction, hslot]

theorem seqOwn_calls {s t : State} (h : seqOwn s = .next t) : t.calls = s.calls := by
  unfold seqOwn at h
  split at h
  · exact (waitPoll_pc_calls h).2
  · exact (seqStep_action h).calls_eq

/-- The handler, its entry and a step that runs a word take no call. -/
theorem step_calls {s t : State} (hs : s.irq.phase ≠ .idle ∨ s.irq.latched = true ∨ s.engine.slot ≠ none)
    (h : step s = .next t) : t.calls = s.calls := by
  by_cases hphase : s.irq.phase = .idle
  · by_cases hlatched : s.irq.latched = true
    · have henter : step s = irqEnter s := by simp [step, hphase, hlatched]
      rw [henter, irqEnter] at h
      split at h <;> cases h
      rfl
    · obtain ⟨w, hw⟩ := Option.ne_none_iff_exists'.mp ((hs.resolve_left (absurd hphase)).resolve_left hlatched)
      rcases step_idle hphase h with rfl | hact
      · rfl
      · simp only [seqAction, hw, runWord] at hact
        split at hact
        next => exact (exec_completes hact).frame.calls
        next => cases hact
  · exact (irqAction_seq_calls (step_handler hphase ▸ h)).2

theorem seqCommit_next (s t : State) : seqCommit s (.next t) =
    if canInterrupt s = true ∧ t.irq.latched = true ∧ t.xfer.inFlight = false then .fault .handlerOutsideTransfer
    else .next t := by
  simp [seqCommit, and_assoc]

theorem startAdmitted_iff {s : State} :
    startAdmitted s = true ↔ s.seq.pc = .ready ∧ s.xfer.inFlight = false ∧ s.seq.acquired = true := by
  simp only [startAdmitted, Bool.and_eq_true, Bool.not_eq_true', beq_iff_eq, and_assoc]

theorem bringUp_of_busy {s : State} (rate : Nat) (h : seqBusy s = true ∨ s.xfer.inFlight = true) :
    bringUp rate s = .refused .concurrent :=
  if_pos (by simpa using h)

/-- A StartTransfer while SEQ is busy is refused by its own rule or as Concurrent (60_exceptions.md R276, R278). -/
theorem otherContext_startTransfer (m : Bool) (s : State) : otherContext (.startTransfer m) s =
    if s.seq.pc = .ready ∧ s.xfer.inFlight = false ∧ s.seq.acquired = true then .refused .concurrent
    else .refused .notReady := by
  simp only [otherContext, startTransfer, startAdmitted_iff]
  split <;> rfl

theorem toNat_ofNat_divider {d : Nat} (h : d ≤ 1023) : (BitVec.ofNat 10 d).toNat = d := by
  rw [BitVec.toNat_ofNat]
  exact Nat.mod_eq_of_lt (by omega)

/-- The three answers of BringUp (43_sequencer.md R210). -/
theorem bringUp_answers (rate : Nat) (s : State) :
    (seqBusy s = true ∨ s.xfer.inFlight = true → bringUp rate s = .refused .concurrent)
    ∧ (seqBusy s = false → s.xfer.inFlight = false → clockInRange s.params.pclk rate = false →
        bringUp rate s = .refused .clockOutOfRange)
    ∧ (seqBusy s = false → s.xfer.inFlight = false → clockInRange s.params.pclk rate = true →
        ∃ t, bringUp rate s = .next t
          ∧ t.seq.pc = .powerUp ∧ t.session = Session.unwritten
          ∧ t.seq.initDiv.toNat = s.params.pclk / 800000
          ∧ t.seq.speedDiv.toNat = (s.params.pclk + 2 * rate - 1) / (2 * rate)
          ∧ t.regs = s.regs ∧ t.xfer = s.xfer ∧ t.trace = s.trace) := by
  refine ⟨bringUp_of_busy rate, fun hfree hflight hrange => by simp [bringUp, hfree, hflight, hrange],
    fun hfree hflight hrange => ?_⟩
  obtain ⟨-, -, hinit, hspeed⟩ := clockInRange_iff.mp hrange
  refine ⟨_, (if_neg (by simp [hfree, hflight])).trans (if_pos hrange), rfl, rfl, ?_, ?_, rfl, rfl, rfl⟩
  · exact toNat_ofNat_divider hinit
  · exact toNat_ofNat_divider hspeed

/-- Settles O30: a step's call by `seqOrCall`, its end by `seqCommit`, and BringUp's own answers. -/
theorem bringUpEntry : Obligations.BringUpEntry := by
  unfold Obligations.BringUpEntry
  refine ⟨fun s hphase hlatched hslot => ?_, fun s t => step_calls, seqCommit_next, fun _ _ => rfl, fun _ _ => rfl,
    fun s => ⟨fun _ => rfl, fun _ => rfl, rfl, fun _ => rfl, fun _ _ => rfl, fun _ _ _ => rfl, fun _ => rfl, rfl⟩,
    fun s hbusy => ⟨fun rate => bringUp_of_busy rate (.inl hbusy), fun m => otherContext_startTransfer m s, rfl,
      fun _ => rfl, fun _ => rfl, fun _ _ => rfl, fun _ _ _ => rfl, rfl⟩,
    bringUp_answers⟩
  rw [step_of_no_word hphase hlatched hslot]
  refine ⟨fun hcalls => by simp [seqOrCall, hcalls], fun c rest hcalls => ⟨fun hfree => ?_, fun hbusy hserial => ?_,
    fun hbusy hother => ?_⟩⟩
  · simp [seqOrCall, hcalls, hfree]
  · have hown : seqOrCall s = seqOwn s := by simp [seqOrCall, hcalls, hbusy, hserial]
    rw [hown]
    exact ⟨rfl, fun t ht => (seqOwn_calls (seqCommit_eq_next ht)).trans hcalls⟩
  · simp [seqOrCall, hcalls, hbusy, hother]

end Sys2Proof.Machine
end

section
/-! PROOFS. The handler (60_exceptions.md R270 to R275): its entry (O49), the three paths of its dispatch (O50, O51, O52),
its stop command (O52) and its release (O53). -/

namespace Sys2Proof.Machine

/-! ### The transfer record has no part in an access -/

@[simp] theorem envNext_setXfer (p : EnvPort) (x : Transfer) (s : State) :
    envNext p (s.setXfer x) = (envNext p s).setXfer x := by
  simp only [envNext, State.setXfer_env]
  split <;> rfl

@[simp] theorem point_setXfer (x : Transfer) (s : State) : point (s.setXfer x) = (point s).setXfer x := by
  have hc : (seqRuns (s.setXfer x) && canInterrupt (s.setXfer x)) = (seqRuns s && canInterrupt s) := rfl
  simp only [point, hc, envNext_setXfer]
  split <;> rfl

@[simp] theorem writeReg_setXfer (r : Reg) (v : Word) (x : Transfer) (s : State) :
    writeReg r v (s.setXfer x) = (writeReg r v s).setXfer x := by
  rw [writeReg, writeReg, ← point_setXfer]
  rfl

@[simp] theorem rmw_setXfer (r : Reg) (mask v : Word) (x : Transfer) (s : State) :
    rmw r mask v (s.setXfer x) = (rmw r mask v s).setXfer x := by
  have hread : readNext r (s.setXfer x) = (readNext r s).setXfer x := by
    simp only [readNext, envNext_setXfer]
    rw [← point_setXfer]
    cases r <;> rfl
  simp only [rmw, hread]
  rw [← point_setXfer]
  rfl

/-! ### Accesses in the handler -/

section
variable {s : State} (hruns : s.irq.phase ≠ .idle)
include hruns

/-- The handler has no preemption point (60_exceptions.md R279). -/
theorem point_of_handler : point s = s := point_of_quiet (by simp [seqRuns, hruns])

theorem readNext_star_of_handler : (readNext .star s).regs = { s.regs with star := readValue .star s } := by
  rw [readNext, point_of_handler (by simpa [Reg.port] using hruns)]
  rfl

theorem writeReg_of_handler (r : Reg) (v : Word) : (writeReg r v s).regs = s.regs.store s.params.layout r v := by
  rw [writeReg, point_of_handler (by exact hruns)]
  rfl

theorem rmw_of_handler {r : Reg} (hp : r.port = none) (mask v : Word) :
    (rmw r mask v s).regs = s.regs.set r (rmwWord (s.regs.get r) mask v) := by
  have hread : (readNext r s).regs = s.regs := by
    rw [readNext, hp, point_of_handler (by exact hruns)]
    rfl
  rw [rmw, point_of_handler (by simpa using hruns), hread]
  rfl

end

@[simp] theorem rmwWord_zero (old mask : Word) : rmwWord old mask 0 = old &&& ~~~mask := by simp [rmwWord]

/-! ### The writes of the dispatch -/

/-- What the two paths of the dispatch begin with: the data flags are cleared, then the data-path enables (60_exceptions.md
R272, R274). -/
def clearDataPath (s : State) : State :=
  rmw .maskr (dataIrq s.params.layout) 0 (writeReg .icr (dataFlags s.params.layout) s)

section
variable {s : State} (hl : s.params.layout = standardLayout) (hruns : s.irq.phase ≠ .idle)
include hl hruns

theorem clearDataPath_regs : (clearDataPath s).regs =
    { s.regs with
      icr := 0x18000F3A, star := s.regs.star &&& ~~~(0x18000F3A : Word)
      maskr := s.regs.maskr &&& ~~~(0x0000C13A : Word) } := by
  have hstore (g : Regs) : g.store standardLayout .icr 0x18000F3A =
      { g with icr := 0x18000F3A, star := g.star &&& ~~~(0x18000F3A : Word) } := rfl
  rw [clearDataPath, rmw_of_handler (by simpa using hruns) rfl, writeReg_of_handler hruns, rmwWord_zero, hl,
    dataFlags_standard, dataIrq_standard, hstore]
  rfl

end

theorem clearDataPath_kept (s : State) : Kept [.icr, .maskr, .star] s (clearDataPath s) :=
  ((writeReg_kept .icr _ s).mono (by simp)).trans ((rmw_kept rfl _ _ _).mono (by simp))

theorem clearDataPath_setXfer (x : Transfer) (s : State) :
    clearDataPath (s.setXfer x) = (clearDataPath s).setXfer x := by
  simp [clearDataPath]

theorem clearDataPath_trace {s : State} (hl : s.params.layout = standardLayout) : (clearDataPath s).trace =
    .write .maskr (s.regs.maskr &&& ~~~(0x0000C13A : Word)) :: .read .maskr (s.regs.maskr &&& s.params.layout.rw.maskr)
      :: .write .icr 0x18000F3A :: s.trace := by
  have hmaskr := (writeReg_kept .icr (dataFlags s.params.layout) s).regs .maskr (by decide)
  rw [clearDataPath, rmw_trace rfl, hmaskr, writeReg_trace, writeReg_params, rmwWord_zero, hl, dataFlags_standard,
    dataIrq_standard]
  rfl

theorem dataEndWrites_eq (s : State) : dataEndWrites s = writeReg .idmactrlr 0 (writeReg .dctrl 0 (writeReg .dlenr 0
    (rmw .cmdr (cmdTrans s.params.layout) 0 (clearDataPath s)))) := rfl

theorem dataEndWrites_frame (s : State) :
    (dataEndWrites s).xfer = s.xfer ∧ (dataEndWrites s).session = s.session ∧ (dataEndWrites s).seq = s.seq := by
  simp [dataEndWrites]

section
variable {s : State} (hl : s.params.layout = standardLayout)
include hl

theorem dataEndWrites_regs (hruns : s.irq.phase ≠ .idle) : (dataEndWrites s).regs =
    { s.regs with
      icr := 0x18000F3A, star := s.regs.star &&& ~~~(0x18000F3A : Word)
      maskr := s.regs.maskr &&& ~~~(0x0000C13A : Word), cmdr := s.regs.cmdr &&& ~~~(0x00000040 : Word)
      dlenr := 0, dctrl := 0, idmactrlr := 0 } := by
  obtain ⟨hparams, -, -, -, -, hphase, -⟩ := clearDataPath_kept s
  rw [dataEndWrites_eq, writeReg_of_handler (by simpa [hphase] using hruns),
    writeReg_of_handler (by simpa [hphase] using hruns), writeReg_of_handler (by simpa [hphase] using hruns),
    rmw_of_handler (by simpa [hphase] using hruns) rfl, clearDataPath_regs hl hruns, rmwWord_zero]
  simp only [writeReg_params, rmw_params, hparams, hl, cmdTrans_standard]
  rfl

/-- The order of the data-end path's accesses (60_exceptions.md R272). -/
theorem dataEndWrites_trace : (dataEndWrites s).trace =
    .write .idmactrlr 0 :: .write .dctrl 0 :: .write .dlenr 0
      :: .write .cmdr (s.regs.cmdr &&& ~~~(0x00000040 : Word)) :: .read .cmdr (s.regs.cmdr &&& s.params.layout.rw.cmdr)
      :: .write .maskr (s.regs.maskr &&& ~~~(0x0000C13A : Word)) :: .read .maskr (s.regs.maskr &&& s.params.layout.rw.maskr)
      :: .write .icr 0x18000F3A :: s.trace := by
  have hkept := clearDataPath_kept s
  have hcmdr := hkept.regs .cmdr (by decide)
  rw [dataEndWrites_eq, writeReg_trace, writeReg_trace, writeReg_trace, rmw_trace rfl, hcmdr, hkept.params, rmwWord_zero,
    clearDataPath_trace hl, hl, cmdTrans_standard]
  rfl

end

/-! ### What a step of the handler is -/

theorem step_dispatch {s : State} (h : s.irq.phase = .dispatch) : step s = .next (irqDispatch s) := by
  rw [step_handler (by simp [h]), irqAction, h]

theorem step_stop {s : State} (h : s.irq.phase = .stop) : step s = irqStop s := by
  rw [step_handler (by simp [h]), irqAction, h]

theorem step_collect {s : State} (h : s.irq.phase = .collect) : step s = .next (irqCollect s) := by
  rw [step_handler (by simp [h]), irqAction, h]

theorem step_release {s : State} (h : s.irq.phase = .release) : step s = .next (irqRelease s) := by
  rw [step_handler (by simp [h]), irqAction, h]

section
variable {s : State} (hl : s.params.layout = standardLayout)
include hl

theorem irqDispatch_of_error (herror : readValue .star s &&& 0x0000003A ≠ 0) :
    irqDispatch s = errorPath (readValue .star s) (readNext .star s) := by
  rw [irqDispatch, hl, dataErrFlags_standard]
  exact if_pos (by simpa using herror)

theorem irqDispatch_of_no_error (herror : readValue .star s &&& 0x0000003A = 0) :
    irqDispatch s =
      if (readValue .star s).getLsbD 8 = true then dataEndPath (readNext .star s) else irqReturn (readNext .star s) := by
  rw [irqDispatch, hl, dataErrFlags_standard]
  exact if_neg (by simpa using herror)

end

/-- The return from the handler shows new flags and may request it again; the rest is as it was (60_exceptions.md R279). -/
theorem irqReturn_frame (s : State) :
    (irqReturn s).xfer = s.xfer ∧ (irqReturn s).session = s.session ∧ (irqReturn s).seq = s.seq
      ∧ (irqReturn s).engine = s.engine ∧ (irqReturn s).trace = s.trace ∧ (irqReturn s).irq.phase = .idle
      ∧ ∀ r : Reg, r ≠ .star → (irqReturn s).regs.get r = s.regs.get r := by
  refine ⟨?_, ?_, ?_, ?_, ?_, ?_, fun r hr => point_get hr _⟩
  all_goals simp [irqReturn]

/-- Settles O49: the step is the handler's entry. -/
theorem interruptEntry : Obligations.InterruptEntry := by
  unfold Obligations.InterruptEntry
  intro s hphase hlatched
  have henter : step s = irqEnter s := by simp [step, hphase, hlatched]
  rw [henter, irqEnter]
  exact ⟨fun hflight => if_neg (by simp [hflight]), fun hflight => if_pos hflight⟩

/-- Settles O50: the dispatch takes the data-end path, whose writes meet no preemption point. -/
theorem dataEndPath_effect : Obligations.DataEndPath := by
  unfold Obligations.DataEndPath
  intro s hstd hphase herror hend
  have hl := layout_of_standard hstd
  have hruns : s.irq.phase ≠ .idle := by simp [hphase]
  have hdispatch : irqDispatch s = dataEndPath (readNext .star s) := by
    rw [irqDispatch_of_no_error hl herror, if_pos hend]
  have hregs := dataEndWrites_regs (s := readNext .star s) (by simpa using hl) (by simpa using hruns)
  have htrace := dataEndWrites_trace (s := readNext .star s) (by simpa using hl)
  rw [readNext_star_of_handler hruns] at hregs htrace
  rw [readNext_trace, readNext_params] at htrace
  obtain ⟨hxfer, hsession, hseq⟩ := dataEndWrites_frame (readNext .star s)
  refine ⟨dataEndPath (readNext .star s), hdispatch ▸ step_dispatch hphase, ?_⟩
  simp [dataEndPath, setPhase, hregs, htrace, hxfer, hsession, hseq]

/-- The error path's accesses read nothing of the record, so its two record writes are one change after them. -/
theorem errorPath_eq (st : Word) (s : State) :
    errorPath st s = setPhase .release ((clearDataPath s).setXfer { s.xfer with status := st, error := true }) := by
  have hpath : errorPath st s = setPhase .release ((clearDataPath (s.setXfer { s.xfer with status := st })).setXfer
    { (clearDataPath (s.setXfer { s.xfer with status := st })).xfer with error := true }) := rfl
  rw [hpath, (clearDataPath_kept _).xfer, clearDataPath_setXfer]
  rfl

/-- Settles O51: the dispatch takes the error path, whose accesses are those of `clearDataPath`. -/
theorem dataErrorPath : Obligations.DataErrorPath := by
  unfold Obligations.DataErrorPath
  intro s hstd hphase herror
  have hl := layout_of_standard hstd
  have hruns : s.irq.phase ≠ .idle := by simp [hphase]
  have hregs := clearDataPath_regs (s := readNext .star s) (by simpa using hl) (by simpa using hruns)
  rw [readNext_star_of_handler hruns] at hregs
  have hsession := irqDispatch_session s
  obtain ⟨-, -, -, -, -, hseq, -⟩ := irqDispatch_frame s
  refine ⟨irqDispatch s, step_dispatch hphase, ?_⟩
  rw [hsession, hseq, irqDispatch_of_error hl herror, errorPath_eq, readNext_xfer]
  have hkept (r : Reg) (hicr : r ≠ .icr) (hmaskr : r ≠ .maskr) (hstar : r ≠ .star) :
      (clearDataPath (readNext .star s)).regs.get r = s.regs.get r :=
    ((clearDataPath_kept _).regs r (by simp [hicr, hmaskr, hstar])).trans ((readNext_kept .star s).regs r (by simp [hstar]))
  simp only [setPhase, State.setIrq_regs, State.setXfer_regs]
  refine ⟨?_, ?_, ?_, fun r hp hicr hmaskr => hkept r hicr hmaskr (star_ne_of_port hp), ?_, ?_, ?_, ?_⟩
  all_goals simp [hregs]

/-- In the default layout a word that is in CMDR replaces CMD_FIELDS, and CMDR's other bits are as before. -/
theorem cmdr_of_wordWritten {i : Instr} {s t : State} (hl : s.params.layout = standardLayout) (h : wordWritten i s t) :
    t.regs.cmdr = (s.regs.cmdr &&& ~~~(0x00011F3F : Word)) ||| (encode standardLayout i).cmdr := by
  have hmask : (encode standardLayout i).cmdr &&& 0x00011F3F = (encode standardLayout i).cmdr :=
    carriesFields_iff.mp (carriesFields_cmdw i.row.index i.row.kind)
  rw [h.2, rmwWord, hl, cmdFields_standard, hmask]

/-- The handler's CMD12 is never refused: SEQ does not run (60_exceptions.md R273, R278). -/
theorem exists_irqStop {s : State} (hl : s.params.layout = standardLayout) (hruns : s.irq.phase ≠ .idle) :
    ∃ u, irqStop s = .next (setPhase .collect u)
      ∧ Completes (.cmd12 0) (s.setEngine { s.engine with appPending := false }) u := by
  have hdecode : decode s.params.layout false (encode s.params.layout (.cmd12 0)) = .instr (.cmd12 0) := by
    rw [hl]
    exact decode_encode (.cmd12 0)
  obtain ⟨u, hu, hdone⟩ := exists_completes (s := s.setEngine { s.engine with appPending := false }) (.cmd12 0)
    (by simp [engineBusy, seqRuns, hruns])
  refine ⟨u, ?_, hdone⟩
  rw [irqStop, hdecode]
  exact congrArg (onNext · (setPhase .collect)) hu

/-- Settles O52: a spurious entry is one read and the return, and the stop command completes as any word does. -/
theorem stopCommandAndSpuriousEntry : Obligations.StopCommandAndSpuriousEntry := by
  unfold Obligations.StopCommandAndSpuriousEntry
  intro s hstd
  have hl := layout_of_standard hstd
  refine ⟨fun hphase herror hend => ?_, fun hphase => ?_, fun hphase => ?_⟩
  · refine ⟨irqDispatch s, step_dispatch hphase, ?_⟩
    rw [irqDispatch_of_no_error hl herror, hend, if_neg (by decide)]
    obtain ⟨hxfer, hsession, -, -, htrace, hidle, -⟩ := irqReturn_frame (readNext .star s)
    rw [hxfer, hsession, htrace]
    simp [hidle]
  · obtain ⟨u, hstop, hdone⟩ := exists_irqStop hl (s := s) (by simp [hphase])
    have hargr : u.regs.argr = 0 &&& s.params.layout.rw.argr := hdone.written.1
    exact ⟨_, (step_stop hphase).trans hstop, rfl, hargr.trans BitVec.zero_and, cmdr_of_wordWritten hl hdone.written,
      hdone.frame.xfer, hdone.frame.slot, hdone.frame.appPending, hdone.out_of_response nofun nofun⟩
  · refine ⟨irqCollect s, step_collect hphase, ?_⟩
    unfold irqCollect
    split
    · exact ⟨rfl, rfl, rfl⟩
    · exact ⟨rfl, rfl, rfl⟩

/-- Settles O53: the release is three writes of the record and the return. -/
theorem releaseCompletesTheTransfer : Obligations.ReleaseCompletesTheTransfer := by
  unfold Obligations.ReleaseCompletesTheTransfer
  intro s hphase
  refine ⟨irqRelease s, step_release hphase, ?_⟩
  obtain ⟨hxfer, hsession, hseq, hengine, htrace, hidle, hregs⟩ :=
    irqReturn_frame (s.setXfer ⟨true, s.xfer.error, false, s.xfer.status, false⟩)
  exact ⟨hxfer, hidle, hseq, hsession, hengine, htrace, hregs⟩

end Sys2Proof.Machine
end

section
/-! PROOFS. When the handler is requested (O60): what a preemption point samples, and where it does. -/

namespace Sys2Proof.Machine

theorem canInterrupt_iff {s : State} : canInterrupt s = true ↔ s.irq.routed = true ∧ s.regs.maskr ≠ 0 := by
  simp [canInterrupt]

theorem lineRaised_iff (maskr star : Word) : lineRaised maskr star = true ↔ star &&& maskr ≠ 0 := by
  simp [lineRaised]

/-- A preemption point of SEQ where the line can reach the handler: STAR shows ENV's flags with the sticky ones, and a raised
line requests the handler (60_exceptions.md R264, R265). -/
theorem point_samples {s : State} (hphase : s.irq.phase = .idle) (hline : canInterrupt s = true) :
    (point s).regs.star = starShown (envValue .flags s) s
      ∧ ((point s).irq.latched = true ↔ s.irq.latched = true ∨ (point s).regs.star &&& s.regs.maskr ≠ 0) := by
  have hsampled : (seqRuns s && canInterrupt s) = true := by simp [seqRuns, hphase, hline]
  simp only [point, if_pos hsampled, envNext_regs, envNext_irq, Bool.or_eq_true, lineRaised_iff, and_self]

/-- At its return the handler drops the request and looks at the line again (60_exceptions.md R279). -/
theorem irqReturn_latched (s : State) :
    (irqReturn s).irq.latched = true ↔ canInterrupt s = true ∧ (irqReturn s).regs.star &&& s.regs.maskr ≠ 0 := by
  have hsame : canInterrupt (s.setIrq { s.irq with latched := false, phase := .idle }) = canInterrupt s := rfl
  have hsamples := point_samples (s := s.setIrq { s.irq with latched := false, phase := .idle }) rfl
  unfold irqReturn
  by_cases hline : canInterrupt s = true
  · simpa [hline] using (hsamples (hsame.trans hline)).2
  · rw [point_of_lineDown (by simpa [hsame] using hline)]
    simp [hline]

/-- A sticky flag that STAR holds is shown at the handler's return, if the line can reach it (10_state.md R60). -/
theorem irqReturn_requested {s : State} (hline : canInterrupt s = true)
    (hflag : s.regs.star &&& stickyFlags s.params.layout &&& s.regs.maskr ≠ 0) : (irqReturn s).irq.latched = true := by
  refine (irqReturn_latched s).mpr ⟨hline, fun hzero => hflag ?_⟩
  have hstar := (point_samples (s := s.setIrq { s.irq with latched := false, phase := .idle }) rfl hline).1
  rw [irqReturn, hstar, starShown, BitVec.and_or_distrib_right] at hzero
  exact (BitVec.or_eq_zero_iff.mp hzero).2

/-- Settles O60: the clauses are the preemption point's, routing's, and the return's from the release and from a spurious
entry. -/
theorem interruptLineIsLatched : Obligations.InterruptLineIsLatched := by
  unfold Obligations.InterruptLineIsLatched
  intro s hstd
  have hl := layout_of_standard hstd
  refine ⟨canInterrupt_iff, fun hphase hline => ?_, fun hnone => ?_, ⟨_, rfl, ?_, ?_, fun hmaskr => ?_⟩, fun hphase => ?_,
    fun hphase hline herror hend hflag => ?_⟩
  · obtain ⟨hstar, hlatched⟩ := point_samples hphase hline
    exact ⟨by rw [hstar, starShown, hl, stickyFlags_standard], hlatched⟩
  · rcases hnone with hruns | hdown
    · exact point_of_handler hruns
    · exact point_of_lineDown hdown
  · exact point_routed _
  · exact point_phase _
  · rw [point_of_lineDown (by simp [canInterrupt, hmaskr])]
    rfl
  · exact ⟨irqRelease s, step_release hphase,
      irqReturn_latched (s.setXfer ⟨true, s.xfer.error, false, s.xfer.status, false⟩)⟩
  · have hruns : s.irq.phase ≠ .idle := by simp [hphase]
    have hread := readNext_star_of_handler hruns
    have hpath : irqDispatch s = irqReturn (readNext .star s) := by
      rw [irqDispatch_of_no_error hl herror, hend, if_neg (by decide)]
    have hlatched : (irqReturn (readNext .star s)).irq.latched = true := by
      refine irqReturn_requested ((canInterrupt_readNext (by decide) s).trans hline) ?_
      rw [hread, readNext_params, hl, stickyFlags_standard]
      exact hflag
    obtain ⟨hxfer, -, hseq, -, -, hidle, -⟩ := irqReturn_frame (readNext .star s)
    rw [readNext_xfer] at hxfer
    rw [readNext_seq] at hseq
    refine ⟨_, hpath ▸ step_dispatch hphase, hidle, hlatched, hxfer, hseq, fun hflight => ?_⟩
    exact ⟨_, (interruptEntry _ hidle hlatched).2 (hxfer ▸ hflight), rfl, hseq⟩

end Sys2Proof.Machine
end

section
/-! PROOFS. StartTransfer (O55) and WaitTransfer (O56): operations of SEQ without a register access, so what their preemption
points show depends on the state they begin in only. -/

namespace Sys2Proof.Machine

/-! ### Preemption points with no access between them -/

@[simp] theorem envNext_setSeq (p : EnvPort) (q : Seq) (s : State) : envNext p (s.setSeq q) = (envNext p s).setSeq q := by
  simp only [envNext, State.setSeq_env]
  split <;> rfl

@[simp] theorem point_setSeq (q : Seq) (s : State) : point (s.setSeq q) = (point s).setSeq q := by
  have hc : (seqRuns (s.setSeq q) && canInterrupt (s.setSeq q)) = (seqRuns s && canInterrupt s) := rfl
  simp only [point, hc, envNext_setSeq]
  split <;> rfl

@[simp] theorem envNext_emit (p : EnvPort) (e : Event) (s : State) : envNext p (s.emit e) = (envNext p s).emit e := by
  simp only [envNext, State.emit_env]
  split <;> rfl

@[simp] theorem point_emit (e : Event) (s : State) : point (s.emit e) = (point s).emit e := by
  have hc : (seqRuns (s.emit e) && canInterrupt (s.emit e)) = (seqRuns s && canInterrupt s) := rfl
  simp only [point, hc, envNext_emit]
  split <;> rfl

/-- A request stands until the handler is entered. -/
theorem point_latched_of_latched {s : State} (h : s.irq.latched = true) : (point s).irq.latched = true := by
  simp only [point]
  split
  · simp [h]
  · exact h

/-- A preemption point that requests the handler is one at which the line can reach it. -/
theorem canInterrupt_of_point_latched {s : State} (hbefore : s.irq.latched = false) (h : (point s).irq.latched = true) :
    canInterrupt s = true := by
  by_contra hline
  rw [point_of_lineDown (by simpa using hline), hbefore] at h
  cases h

theorem pointAfter_latched_of_latched {s : State} (k : Nat) (h : s.irq.latched = true) :
    (pointAfter k s).irq.latched = true := by
  induction k generalizing s with
  | zero => exact h
  | succ k ih => exact ih (point_latched_of_latched h)

theorem pointAfter_succ (k : Nat) (s : State) : point (pointAfter k s) = pointAfter (k + 1) s := by
  induction k generalizing s with
  | zero => rfl
  | succ k ih => exact ih (point s)

theorem pointAfter_setXfer (k : Nat) (x : Transfer) (s : State) :
    pointAfter k (s.setXfer x) = (pointAfter k s).setXfer x := by
  induction k generalizing s with
  | zero => rfl
  | succ k ih => rw [pointAfter, point_setXfer, ih, pointAfter]

theorem pointAfter_setSeq (k : Nat) (q : Seq) (s : State) : pointAfter k (s.setSeq q) = (pointAfter k s).setSeq q := by
  induction k generalizing s with
  | zero => rfl
  | succ k ih => rw [pointAfter, point_setSeq, ih, pointAfter]

/-- What preemption points leave alone. -/
theorem pointAfter_frame (k : Nat) (s : State) :
    (pointAfter k s).xfer = s.xfer ∧ (pointAfter k s).session = s.session ∧ (pointAfter k s).engine = s.engine
      ∧ (pointAfter k s).seq = s.seq ∧ (pointAfter k s).trace = s.trace
      ∧ ∀ r : Reg, r ≠ .star → (pointAfter k s).regs.get r = s.regs.get r := by
  induction k generalizing s with
  | zero => exact ⟨rfl, rfl, rfl, rfl, rfl, fun _ _ => rfl⟩
  | succ k ih =>
    obtain ⟨hxfer, hsession, hengine, hseq, htrace, hregs⟩ := ih (point s)
    exact ⟨hxfer.trans (point_xfer s), hsession.trans (point_session s), hengine.trans (point_engine s),
      hseq.trans (point_seq s), htrace.trans (point_trace s),
      fun r hr => (hregs r hr).trans (point_get hr s)⟩

theorem canInterrupt_of_pointAfter_latched {k : Nat} {s : State} (hbefore : s.irq.latched = false)
    (h : (pointAfter k s).irq.latched = true) : canInterrupt s = true := by
  induction k generalizing s with
  | zero => exact absurd h (by simp [pointAfter, hbefore])
  | succ k ih =>
    by_cases hpoint : (point s).irq.latched = true
    · exact canInterrupt_of_point_latched hbefore hpoint
    · exact (canInterrupt_point s).symm.trans (ih (by simpa using hpoint) h)

/-! ### StartTransfer -/

/-- A record write where no request stands: the handler entered at its preemption point outside a transfer is the fault
(60_exceptions.md R265, R270). -/
theorem recordWrite_eq {f : Transfer → Transfer} {s : State} (hbefore : s.irq.latched = false) :
    recordWrite f s =
      if (point s).irq.latched = true ∧ (f s.xfer).inFlight = false then .fault .handlerOutsideTransfer
      else .next ((point s).setXfer (f s.xfer)) := by
  rw [recordWrite, seqCommit_next, point_setXfer]
  refine if_congr ⟨fun ⟨_, h⟩ => h, fun h => ⟨canInterrupt_of_point_latched hbefore h.1, h⟩⟩ rfl rfl

/-- Record writes one after the other, and what follows them. -/
def recordWrites (k : State → StepResult) : List (Transfer → Transfer) → State → StepResult
  | [], s => k s
  | f :: fs, s => andThen (recordWrite f s) (recordWrites k fs)

/-- StartTransfer's record writes before the one that puts the transfer in flight (60_exceptions.md R276). -/
def startWrites (multi : Bool) : List (Transfer → Transfer) :=
  [fun x => { x with completed := false }, fun x => { x with error := false }, fun x => { x with status := 0 },
    fun x => { x with multiBlock := multi }]

theorem startTransfer_of_admitted {multi : Bool} {s : State} (h : startAdmitted s = true) :
    startTransfer multi s = recordWrites (recordWrite fun x => { x with inFlight := true }) (startWrites multi)
      (s.setSeq { s.seq with acquired := false, startMulti := multi }) :=
  if_pos h

/-- Record writes that put no transfer in flight: a request at any of their preemption points is the fault. -/
theorem recordWrites_eq {k : State → StepResult} {fs : List (Transfer → Transfer)} {s : State}
    (hbefore : s.irq.latched = false) (hflight : s.xfer.inFlight = false)
    (hfs : ∀ f ∈ fs, ∀ x : Transfer, (f x).inFlight = x.inFlight) :
    recordWrites k fs s =
      if (pointAfter fs.length s).irq.latched = true then .fault .handlerOutsideTransfer
      else k ((pointAfter fs.length s).setXfer (fs.foldl (fun x f => f x) s.xfer)) := by
  induction fs generalizing s with
  | nil => exact (if_neg (by simp [pointAfter, hbefore])).symm
  | cons f fs ih =>
    have hout : (f s.xfer).inFlight = false := (hfs f (by simp) s.xfer).trans hflight
    rw [recordWrites, recordWrite_eq hbefore, List.length_cons, pointAfter, List.foldl_cons]
    by_cases hpoint : (point s).irq.latched = true
    · rw [if_pos ⟨hpoint, hout⟩, if_pos (pointAfter_latched_of_latched _ hpoint), andThen_fault]
    · rw [if_neg fun h => hpoint h.1, andThen_next,
        ih (by simpa using hpoint) hout fun g hg => hfs g (List.mem_cons_of_mem f hg), pointAfter_setXfer]
      rfl

/-- An admitted call is four record writes that put no transfer in flight, and the one that does (60_exceptions.md R276). -/
theorem startTransfer_eq {multi : Bool} {s : State} (hadmitted : startAdmitted s = true) (hbefore : s.irq.latched = false) :
    startTransfer multi s =
      if (pointAfter 4 s).irq.latched = true then .fault .handlerOutsideTransfer
      else .next (((pointAfter 5 s).setSeq { s.seq with acquired := false, startMulti := multi }).setXfer
        ⟨false, false, multi, 0, true⟩) := by
  obtain ⟨-, hflight, -⟩ := startAdmitted_iff.mp hadmitted
  have hfs : ∀ f ∈ startWrites multi, ∀ x : Transfer, (f x).inFlight = x.inFlight := by simp [startWrites]
  have hlength : (startWrites multi).length = 4 := rfl
  have hfold : (startWrites multi).foldl (fun x f => f x) s.xfer = ⟨false, false, multi, 0, s.xfer.inFlight⟩ := rfl
  rw [startTransfer_of_admitted hadmitted, recordWrites_eq (by exact hbefore) (by exact hflight) hfs, hlength,
    pointAfter_setSeq, State.setSeq_irq, State.setSeq_xfer, hfold]
  refine ite_congr rfl (fun _ => rfl) fun hquiet => ?_
  have hfive : point (pointAfter 4 s) = pointAfter 5 s := pointAfter_succ 4 s
  rw [recordWrite_eq (by simpa using hquiet), if_neg (by simp), point_setXfer, point_setSeq, hfive]
  generalize pointAfter 5 s = u
  rfl

/-- Settles O55: a refused call is not admitted, and an admitted one faults or ends after its five preemption points. -/
theorem startTransferEffect : Obligations.StartTransferEffect := by
  unfold Obligations.StartTransferEffect
  intro multi s
  refine ⟨fun hbad => if_neg ?_, fun hpc hflight hacquired _ hbefore => ?_⟩
  · rw [startAdmitted_iff]
    rintro ⟨hpc, hflight, hacquired⟩
    simp [hpc, hflight, hacquired] at hbad
  · rw [startTransfer_eq (startAdmitted_iff.mpr ⟨hpc, hflight, hacquired⟩) hbefore]
    obtain ⟨-, hsession, -, -, htrace, hregs⟩ := pointAfter_frame 5 s
    refine ⟨fun hquiet => ⟨_, if_neg (by simp [hquiet]), ?_⟩, fun hraised => if_pos hraised⟩
    simpa [hsession, htrace] using hregs

/-! ### WaitTransfer -/

theorem recordSeen_eq (f : RecField) (s : State) : recordSeen f s = (point s).emit (.record f (recordNow f s)) :=
  point_emit _ s

/-- The state after a poll of `n` reads: what their preemption points leave, with SEQ's registers `q` and the trace `tr`. -/
def polled (n : Nat) (q : Seq) (tr : List Event) (s : State) : State := { pointAfter n s with seq := q, trace := tr }

theorem polled_frame (n : Nat) (q : Seq) (tr : List Event) (s : State) :
    (polled n q tr s).xfer = s.xfer ∧ (polled n q tr s).session = s.session ∧ (polled n q tr s).engine = s.engine
      ∧ (polled n q tr s).irq.latched = (pointAfter n s).irq.latched
      ∧ ∀ r : Reg, r ≠ .star → (polled n q tr s).regs.get r = s.regs.get r := by
  obtain ⟨hxfer, hsession, hengine, -, -, hregs⟩ := pointAfter_frame n s
  exact ⟨hxfer, hsession, hengine, rfl, hregs⟩

/-- The wait after a poll that reads `completed` as false, with `left` polls to come: one fewer, or the Timeout
(60_exceptions.md R277). -/
def waitsOn : Nat → Seq → Seq
  | 0, q => { q with wait := none, waitRet := some .timeout }
  | n + 1, q => { q with wait := some n }

theorem waitPoll_running {s : State} (left : Nat) (h : s.xfer.completed = false) :
    waitPoll left s = .next (polled 1 (waitsOn left s.seq) (.record .completed 0 :: s.trace) s) := by
  obtain ⟨-, -, -, hseq, htrace, -⟩ := pointAfter_frame 1 s
  have hread : recordSeen .completed s = (pointAfter 1 s).emit (.record .completed 0) := by
    simp [recordSeen_eq, recordNow, boolWord, h, pointAfter]
  refine (if_neg (by simp [h])).trans ?_
  rw [hread, polled]
  generalize pointAfter 1 s = u at hseq htrace ⊢
  rw [← hseq, ← htrace]
  cases left <;> rfl

/-- What the return of a wait leaves of SEQ's registers (60_exceptions.md R277, 20_memory.md R80). -/
def waitReturns (x : Transfer) (q : Seq) : Seq :=
  { q with wait := none, acquired := true, waitRet := some (.done (waitOutcome x) x.status) }

/-- A poll that reads `completed` as true reads `error` and `status` after it. -/
theorem waitPoll_completed {s : State} (left : Nat) (h : s.xfer.completed = true) :
    waitPoll left s = .next (polled 3 (waitReturns s.xfer s.seq)
      (.record .status s.xfer.status :: .record .error (boolWord s.xfer.error) :: .record .completed 1 :: s.trace) s) := by
  obtain ⟨-, -, -, hseq, htrace, -⟩ := pointAfter_frame 3 s
  have hreads : recordSeen .status (recordSeen .error (recordSeen .completed s)) = (((pointAfter 3 s).emit
      (.record .completed 1)).emit (.record .error (boolWord s.xfer.error))).emit (.record .status s.xfer.status) := by
    simp [recordSeen_eq, recordNow, boolWord, h, pointAfter]
  refine (if_pos h).trans ?_
  rw [hreads, polled]
  generalize pointAfter 3 s = u at hseq htrace ⊢
  rw [← hseq, ← htrace]
  rfl

/-- A step that polls: the handler entered at one of the poll's preemption points outside a transfer is the fault
(60_exceptions.md R265, R270). -/
theorem step_of_wait {s : State} {left n : Nat} {q : Seq} {tr : List Event} (hphase : s.irq.phase = .idle)
    (hbefore : s.irq.latched = false) (hslot : s.engine.slot = none) (hcalls : s.calls = []) (hwait : s.seq.wait = some left)
    (hpoll : waitPoll left s = .next (polled n q tr s)) :
    (s.xfer.inFlight = false → (pointAfter n s).irq.latched = true → step s = .fault .handlerOutsideTransfer)
      ∧ (s.xfer.inFlight = true ∨ (pointAfter n s).irq.latched = false → step s = .next (polled n q tr s)) := by
  obtain ⟨hxfer, -, -, hlatched, -⟩ := polled_frame n q tr s
  have hstep : step s = seqCommit s (waitPoll left s) := by
    rw [step_of_no_word hphase hbefore hslot, seqOrCall, hcalls, seqOwn, hwait]
  rw [hstep, hpoll, seqCommit_next, hlatched, hxfer]
  refine ⟨fun hflight hraised => if_pos ⟨canInterrupt_of_pointAfter_latched hbefore hraised, hraised, hflight⟩,
    fun hmade => if_neg ?_⟩
  rintro ⟨-, hraised, hflight⟩
  simp [hraised, hflight] at hmade

/-- Settles O56: a poll is one read or three, and the step that makes it faults where one of their preemption points requests
the handler outside a transfer. -/
theorem waitTransferPolls : Obligations.WaitTransferPolls := by
  unfold Obligations.WaitTransferPolls
  intro s hphase hbefore hslot hcalls
  refine ⟨⟨_, rfl, rfl, rfl⟩, fun left hwait => ?_⟩
  cases hc : s.xfer.completed with
  | false =>
    obtain ⟨hfault, hmade⟩ := step_of_wait hphase hbefore hslot hcalls hwait (waitPoll_running left hc)
    obtain ⟨hxfer, hsession, hengine, hlatched, hregs⟩ :=
      polled_frame 1 (waitsOn left s.seq) (.record .completed 0 :: s.trace) s
    refine ⟨hfault, fun h => ⟨_, hmade h, hxfer, hsession, hengine, hlatched, hregs, nofun, fun _ => ⟨rfl, ?_, ?_⟩⟩⟩
    · rintro rfl
      rfl
    · intro hleft
      obtain ⟨n, rfl⟩ := Nat.exists_eq_add_one.mpr hleft
      rfl
  | true =>
    obtain ⟨hfault, hmade⟩ := step_of_wait hphase hbefore hslot hcalls hwait (waitPoll_completed left hc)
    obtain ⟨hxfer, hsession, hengine, hlatched, hregs⟩ := polled_frame 3 (waitReturns s.xfer s.seq)
      (.record .status s.xfer.status :: .record .error (boolWord s.xfer.error) :: .record .completed 1 :: s.trace) s
    exact ⟨hfault, fun h => ⟨_, hmade h, hxfer, hsession, hengine, hlatched, hregs, fun _ => ⟨rfl, rfl⟩, nofun⟩⟩

end Sys2Proof.Machine
end

section
/-! PROOFS. The statement about reset and hazards (70_reset_and_hazards.md): the order of the accesses of `send` (O6). -/

namespace Sys2Proof.Machine

/-- Settles O6: the read-modify-write of CMDR follows the write of ARGR, which leaves CMDR and the layout as they were. -/
theorem argumentIsWrittenBeforeCommand : Obligations.ArgumentIsWrittenBeforeCommand := by
  unfold Obligations.ArgumentIsWrittenBeforeCommand
  intro row a s
  have hcmdr : (writeReg .argr a s).regs.get .cmdr = s.regs.cmdr := (writeReg_kept .argr a s).regs .cmdr (by simp)
  rw [send_cmdr, send, rmw_trace rfl, hcmdr, writeReg_params, writeReg_trace]
  rfl

end Sys2Proof.Machine
end
